-- ==== Sys2Proof/Word.lean ====
section
/-!
DEFINITION. Word.lean: the word and byte types, and their plainest arithmetic.
A register is 32 bits (R16), memory is addressed by the byte (R405); multi-byte values are little-endian (R11).
-/
namespace Sys2Proof

/-- A register word (R16). -/
abbrev Word := BitVec 32

/-- A byte of memory or of a transfer. -/
abbrev Byte := BitVec 8

/-- Word with a numeral's value, modulo 2^32. -/
abbrev Word.of (n : Nat) : Word := BitVec.ofNat 32 n

/-- Byte with a numeral's value, modulo 2^8. -/
abbrev Byte.of (n : Nat) : Byte := BitVec.ofNat 8 n

/-- The value of a byte string read least significant byte first (R11). -/
def leNat : List Byte → Nat
  | [] => 0
  | b :: bs => b.toNat + 256 * leNat bs

/-- The low `n` bytes of a value, least significant byte first (R11). -/
def leBytes : Nat → Nat → List Byte
  | 0, _ => []
  | n + 1, v => Byte.of v :: leBytes n (v / 256)

/-- The value of a byte string read most significant byte first, as the cryptographic standards write integers. -/
def beNat (bs : List Byte) : Nat := bs.foldl (fun a b => a * 256 + b.toNat) 0

/-- `n` bytes of a value, most significant byte first. -/
def beBytes (n v : Nat) : List Byte := (leBytes n v).reverse

/-- Two's complement reading of the low `w` bits of `n`. -/
def signedOf (w n : Nat) : Int :=
  let m := n % 2 ^ w
  if m < 2 ^ (w - 1) then Int.ofNat m else Int.ofNat m - Int.ofNat (2 ^ w)

/-- The `w`-bit two's complement pattern of an integer. -/
def patternOf (w : Nat) (i : Int) : Nat := (i % Int.ofNat (2 ^ w)).toNat

/-- An integer held between two bounds. -/
def clampInt (lo hi i : Int) : Int := if i < lo then lo else if hi < i then hi else i

/-- Saturating addition in a counter of `w` bits. -/
def satAdd (w a b : Nat) : Nat := min (2 ^ w - 1) (a + b)

end Sys2Proof
end

