-- ==== Sys2Proof/Config.lean ====
section
/-!
DEFINITION. Config.lean: the names that commands carry as operands, what the vendor fixes for a device and the spec
does not state, and the free values. A free value is a constant with no body: nothing can evaluate it, and whatever is
proved holds for every value of it (log entry 3).
-/
namespace Sys2Proof

/-! ### Names -/

/-- A byte with its poison mark (R447). -/
structure MByte where
  v : Byte
  p : Bool
  deriving DecidableEq, Repr

/-- A clean byte. -/
abbrev MByte.clean (v : Byte) : MByte := ⟨v, false⟩

/-- The byte a RESET_ABORT carries (R464): zero, marked poisoned. -/
abbrev MByte.aborted : MByte := ⟨0, true⟩

/-- The phase-locked loops of R75: Die S, Die T, Die F, Die M, the CSI-2 port and one per Vale. -/
inductive Pll where
  | s | t | f | m | c | v (n : Nat)
  deriving DecidableEq, Repr

/-- The host ports that reach the register map (R519). -/
inductive Port where
  | xspi | i3c
  deriving DecidableEq, Repr

/-- The computed exposure edges of one active row (R203). -/
inductive Edge where
  | longOpen | longClose | shortOpen | shortClose
  deriving DecidableEq, Repr

/-- How FILL ends (R131, R132, R91). -/
structure FillOutcome where
  /-- The read-back found a check-bit error (R132). -/
  checkError : Bool
  /-- Vales whose PLL has locked, one bit each (R131). -/
  locked : Nat
  /-- PLL_S has locked. -/
  lockedS : Bool
  deriving DecidableEq, Repr

/-- What SELFTEST finds (R133, R134, R645). -/
structure SelftestOutcome where
  saddleFail : Bool
  /-- Vales that failed, one bit each. -/
  valeFail : Nat
  /-- Terrace slices retired, as 5·group + slice. -/
  slices : List Nat
  /-- Plain dies lost. -/
  dies : List Nat
  /-- Survey slices that passed: bit 0 A, bit 1 B (R252). -/
  survey : Nat
  /-- Safe-voltage points of each Vale at 200, 400, 600, 800 and 1 000 MHz (R645), in mV. -/
  safe : List (List Nat)
  deriving DecidableEq, Repr

/-- The way of a reply through the fabric: nodes from and to, and the virtual channel (R463, R470). -/
structure Route where
  src : Nat
  dst : Nat
  vc : Nat
  deriving DecidableEq, Repr

/-- Stored bits that have flipped in a memory since it was last visited: bits of a data cell or of a check cell. -/
structure Upset where
  inChk : Bool
  key : Nat
  mask : Byte
  deriving DecidableEq, Repr

end Sys2Proof

namespace Sys2Proof.Config

/-! ### What the vendor fixes and the spec does not state -/

/-- The vendor's 15-bit manufacturer code of PID[47:33] (R532). -/
opaque manufacturer : BitVec 15

/-- The vendor test key of mask ROM (R571, R154). -/
opaque vendorTestKey : BitVec 256

/-- The vendor ROM key that decrypts images with ENC 0x02 (R161, R175). -/
opaque vendorImageKey : BitVec 256

/-- The vendor's public key, X ‖ Y, whose SHA-256 hash mask ROM holds (R155, R156). -/
opaque vendorKey : BitVec 512

/-! ### Free values -/

/-- Draw `n` of the true random number generator (R571, R156). -/
opaque trng : Nat → BitVec 64

/-- Decision weight W[s][i] of a Terrace slice (R228), by group, slice, decision and calibration draw, in 1/64 LSB. -/
opaque sliceWeight (group slice i draw : Nat) : BitVec 20

/-- Offset O[s] of a Terrace slice, signed, in 1/64 LSB (R228, R244). -/
opaque sliceOffset (group slice draw : Nat) : BitVec 24

/-- Gain G[s] of a Terrace slice, in 1.15 format (R228). -/
opaque sliceGain (group slice draw : Nat) : BitVec 16

/-- Skew trim of a Terrace slice, signed, in 0.625 ps (R229). -/
opaque sliceSkew (group slice draw : Nat) : BitVec 8

/-- How far past its second SURVEY cycle a hold instant falls, in femtoseconds, of a write or an FSYNC_IN edge (R253). -/
opaque holdDelay (hold : Nat) : BitVec 32

/-- Shadow residual of a Terrace slice over an interval (R231, R244) that lies outside what TER_SLICE_RESID can show. -/
opaque sliceResidual (group slice draw : Nat) : BitVec 16

/-- A shadow residual that is no multiple of 1/256 LSB rms shows rounded up (R244 names no rounding). -/
opaque residualRounds (group slice draw : Nat) : Bool

/-- Which way a column update of R232 rounds, which states no rounding: true for up. By draw. -/
opaque columnRounds : Nat → Bool

/-- A column update whose result lies outside the format of D[c] or C[c] (R228, R232), by draw. -/
opaque columnOverflow : Nat → BitVec 24

/-- A mean of R268, R269, R282 or R283 that is over no values, by frame and place: a black level or an OB average. -/
opaque emptyMean (frame place : Nat) : BitVec 24

/-- A binary32 value of the front pipeline that the spec does not state, by frame and place: the quotient of R275 by a zero
noise, and a colour difference of R282 or R283 whose window, cut off by the array's edge, holds no site of the colour. -/
opaque frontUnstated (frame place : Nat) : BitVec 32

/-- The high half of the last byte of an INT4 row with an odd number of elements (R293), by frame and address. -/
opaque oddNibble (frame addr : Nat) : BitVec 4

/-- A coordinate of a box that an NMS list names beyond the rows of its box tensor (R346), by index and coordinate. -/
opaque noBox (index coordinate : Nat) : BitVec 32

/-- Which way a tone curve's interpolation rounds, which R274 does not state: true for up. By input (binary32) and the two
curve points. -/
opaque toneRoundsUp (x p0 p1 : Nat) : Bool

/-- Codes that fill the last packing group of a crop row whose width is no whole number of groups (R567), by frame and
place. -/
opaque packFill (frame place : Nat) : BitVec 16

/-- How far a pass has come when its unit is stopped (R98, R428, R618, R623), by draw. -/
opaque stopPoint : Nat → BitVec 64

/-- R490: the Control flits that a Control unit's pass sends, by draw. -/
opaque passFlits : Nat → BitVec 24

/-- Largest waiting time of a Plain line read of a tick, as far as PLAIN_LAT_PEAK shows it, and of a Control flit, by draw; both
bounded by R413 and R485. -/
opaque plainLatency : Nat → BitVec 8
opaque controlLatency : Nat → BitVec 8

/-- How far the Saddle's island stays below its ceiling of VDDL − 30 mV (R39), in mV, by VDDL. -/
opaque saddleDrop (vddl : Nat) : BitVec 10

/-- Whether a low level of nRESET between 100 ns and 500 ns is taken (R118: it may or may not act), by draw. -/
opaque shortReset : Nat → Bool

end Sys2Proof.Config
end

