-- ==== Sys2Proof/Syntax.lean ====
section
/-!
DEFINITION. Syntax.lean: the commands of the block, one constructor per row of the spec's opcode table, in its order.
An operand is what the row's event brings with it: a level, a count, a measured value or the bytes of a transfer.
-/
namespace Sys2Proof

/-- A command of the block: one constructor per row of the opcode table. -/
inductive Instr where
  /-- R115: VDDA stays below 1.20 V for at least 100 µs and the device goes to OFF. -/
  | vddaLoss
  /-- R25: VDDA reaches 1.71 V, the always-on island starts and the device enters RESET_HOLD. -/
  | aonStart
  /-- R122: Every required rail has been in range for 32 consecutive AON cycles, so power-good becomes true. -/
  | powerGood
  /-- R118: A qualifying low level on nRESET sends the device to RESET_HOLD, drives the pads to their Reset states
  and starts the VCM ramp. -/
  | nresetLow (widthNs : Nat)
  /-- R124: A required rail stays below its fall threshold for more than 2 µs, sending the device to RESET_HOLD and
  setting RESET_CAUSE. -/
  | railFall (rail : Nat)
  /-- R125: Power-good, nRESET high and a clear OTP latch all hold, so the device samples its straps, opens a seal
  session and enters SENSE. -/
  | exitResetHold (straps : Nat)
  /-- R75: A count of XCLK over 32 AON periods ends; the device identifies XCLK, or repeats the count when the
  result is not valid. -/
  | xclkCount (count : Nat)
  /-- R127: Sensing of all OTP bits completes; the integrity check runs and the ROM patches are applied. -/
  | otpSenseDone
  /-- R130: A SENSE PLL has not locked 200 µs after its start, so all three PLLs are stopped and restarted. -/
  | pllLockTimeout
  /-- R88: The SEC domain changes over from XCLK to PLL_F ÷ 3 without a glitch. -/
  | secChangeover
  /-- R115: All SENSE conditions hold; the device enters FILL, starts PLL_S and the PLL_V PLLs, and starts zero-
  filling the SRAMs. -/
  | senseEnd
  /-- R131: The FILL read-back ends and the PLLs have locked; the device enters SELFTEST, or FAULT_STOP on a check-
  bit error. -/
  | fillComplete (outcome : FillOutcome)
  /-- R133: Self-test ends; units are fenced or retired, dies are lost, and the device enters LOAD or FAULT_STOP. -/
  | selftestComplete (outcome : SelftestOutcome)
  /-- R136: LOAD ends, whatever the outcome, and the device enters HOLD with a HOLD_REASON. -/
  | loadEnd
  /-- R91: A PLL loses lock; the response depends on the PLL: FAULT_STOP, CSI-2 outputs stop, or a Vale is fenced. -/
  | pllUnlock (pll : Pll)
  /-- R119: A DEV_CTRL SOFT_RESET with a valid key acts as a qualifying nRESET low level. -/
  | softReset (key : Nat)
  /-- R143: A DEV_CTRL GO in HOLD with an admitted image enters RUN or DEGRADED and starts the tick. -/
  | go (key : Nat)
  /-- R146: A DEV_CTRL STOP in RUN or DEGRADED lets the current tick finish and starts an orderly stop. -/
  | stop (key : Nat)
  /-- R135: A DEV_CTRL RELOAD in HOLD enters LOAD to read the boot flash, whatever BOOT_SRC reads. -/
  | reload (key : Nat)
  /-- R146: The start of slot S of the drain tick is reached and the device enters HOLD with HOLD_REASON STOPPED. -/
  | drainEnd
  /-- R72: A tick edge begins a frame; pending fields, exposures, tables, throttling and the RUN or DEGRADED state
  take effect. -/
  | tickEdge (vddlMv : Nat)
  /-- R92: A slot begins and the slot event is sent to every engine domain. -/
  | slotStart (slot : Nat)
  /-- R85: The FSYNC_OUT pulse width expires and the pin falls. -/
  | fsyncOutEnd
  /-- R96: A work unit starts once its start slot, its predecessor and its row gate all allow it. -/
  | unitStart (entry : Nat)
  /-- R373: A pass begins after the previous pass's writes commit, taking its data-dependent iteration count. -/
  | passStart (lane : Nat)
  /-- R471: A unit ends once all of its writes and pushes are acknowledged. -/
  | unitEnd (lane : Nat) (cycles : Nat)
  /-- R98: A unit has not finished at its window end, so it is stopped, marked INCOMPLETE and TICK_OVERRUN is
  recorded. -/
  | windowOverrun (entry : Nat)
  /-- R79: A filtered FSYNC_IN rising edge is accepted, ignored or counted, and the slaving state and tick length
  are updated. -/
  | fsyncEdge (highNs : Nat) (atPs : Nat)
  /-- R79: An acceptance window closes with no accepted edge, setting MISSED and moving LOCKED to HOLDOVER. -/
  | windowMissed
  /-- R82: FSYNC_WAIT ticks pass in ACQUIRE with no accepted edge, so the loop goes to FREE. -/
  | fsyncAbsent
  /-- R82: HOLDOVER_MAX consecutive windows are missed in HOLDOVER, so the loop goes to FREE. -/
  | slaveLost
  /-- R217: An accepted TRIG edge is counted and stamped. -/
  | trigEdge (high : Nat × Nat)
  /-- R204: A reset or transfer pulse is placed at a computed exposure edge, and STROBE follows. -/
  | exposureEdge (edge : Edge) (row : Nat × Nat)
  /-- R215: STROBE_MAX expires and STROBE falls, setting STROBE_CUT. -/
  | strobeCut
  /-- R201: A row time begins and the Terrace groups start its conversion phases. -/
  | rowTimeStart (k : Int) (raws : List Nat)
  /-- R230: Every 256th counted row time, slices are retired, group modes are set and the spare rotates. -/
  | rotationBoundary (refs : List (Nat × List Int))
  /-- R266: A corrected sample reaches the front pipeline and is processed through its stages. -/
  | sampleArrival
  /-- R253: A SRV_TRIG GO write triggers a Survey scan. -/
  | srvGo
  /-- R251: A channel period ends and its result is pushed, stored and window-checked. -/
  | surveyResult (conversions : List (Int × Int))
  /-- R255: The scan's tracking recovery ends and the Survey becomes free. -/
  | surveyBusyEnd
  /-- R258: A SRV_TRIG FLUSH write empties the Survey FIFO. -/
  | srvFlush
  /-- R261: A SRV_TRIG CLR_COUNTS write clears SRV_COUNTS. -/
  | srvClrCounts
  /-- R258: A read of SRV_FIFO_DATA returns and removes the oldest entry. -/
  | srvFifoDataRead
  /-- R379: A sentinel report re-runs a wave from its held inputs. -/
  | waveReplay (vale : Nat) (wave : Nat × Nat)
  /-- R381: A fourth consecutive replay below SAFE_MV raises the island at once. -/
  | replayStorm (vale : Nat)
  /-- R382: Sixteen consecutive replays at SAFE_MV fence the Vale. -/
  | replayStuck (vale : Nat)
  /-- R386: At slot 4 064, each Vale's controller updates OFFSET and sets the next island target. -/
  | voltageEvaluation
  /-- R423: A Mover COPY pass moves a rectangle with memmove semantics. -/
  | copy (mover : Nat)
  /-- R426: A Mover FILL pass writes a repeating 8-byte pattern. -/
  | moverFill (mover : Nat)
  /-- R427: A Mover GATHER pass copies rows selected by an index list. -/
  | gather (mover : Nat)
  /-- R354: A Mover ROUTE pass selects experts per token, fills seats and writes group tables and counts. -/
  | route (mover : Nat)
  /-- R360: A Mover COMBINE pass scatters weighted expert outputs onto the residual rows. -/
  | combine (mover : Nat)
  /-- R367: A Mover PLACE pass copies the pending seats' master weights into their inactive banks. -/
  | place (mover : Nat)
  /-- R366: At a decision edge every PERIOD ticks, the layer's seats are reassigned from demand. -/
  | placementDecision (layer : Nat)
  /-- R368: At the first tick edge after the last copy, a pending revision switches banks. -/
  | placementSwitch (layer : Nat)
  /-- R464: A read request reaches a memory and is served, with check decoding and poison. -/
  | rdReq (node : Nat) (vc : Nat) (tag : Nat) (mem : Nat) (offset : Nat) (length : Nat) (upsets : List Upset)
  /-- R464: A write request reaches a memory and is stored, poisoned lines included. -/
  | wrReq (node : Nat) (vc : Nat) (tag : Nat) (mem : Nat) (offset : Nat) (bytes : List MByte)
  /-- R464: Read data arrives back at its requester. -/
  | rdData (route : Route)
  /-- R471: A write acknowledgement arrives at its requester. -/
  | wrAck (route : Route)
  /-- R476: The queue manager performs a push and returns a status. -/
  | qPush (node : Nat) (vc : Nat) (tag : Nat) (queue : Nat) (element : List MByte)
  /-- R477: The queue manager performs a pop and returns an element or a status. -/
  | qPop (node : Nat) (vc : Nat) (tag : Nat) (queue : Nat)
  /-- R464: A queue reply with status arrives at the producer or consumer. -/
  | qReply (route : Route)
  /-- R464: A register-access flit from the host block reaches its block. -/
  | reg
  /-- R464: A register reply returns to the host block. -/
  | regReply
  /-- R619: A RESET_ABORT reply of poisoned zeros reaches a requester in place of its reply. -/
  | resetAbort (route : Route)
  /-- R476: A STALL producer sends a refused push again after 16 PASS cycles. -/
  | pushRetry (lane : Nat)
  /-- R437: A corrected SRAM byte is written back in the first free bank cycle. -/
  | ceWriteBack
  /-- R444: Corrections attributed to a die reach THRESH, so the die is declared lost. -/
  | dieThreshold (dies : List Nat)
  /-- R444: A die's channel loses training or returns no strobe, so the die is declared lost. -/
  | channelLoss (dies : List Nat)
  /-- R444: An ECC_CTRL DECLARE with a valid key declares a die lost. -/
  | eccDeclare (key : Nat) (die : Nat)
  /-- R444: A die-loss counting window expires and the next one begins. -/
  | eccWindowEnd
  /-- R452: The background Plain pointer visits its next line. -/
  | scrubPlainVisit (upsets : List Upset)
  /-- R452: The background Basin pointer visits its next block. -/
  | scrubBasinVisit (upsets : List Upset)
  /-- R453: A scrubbed line with corrections is written back unless it was overwritten meanwhile. -/
  | scrubWriteBack
  /-- R454: A SCRUB_T_CTRL GO starts or rejects a triggered pass. -/
  | scrubGo (mem : Nat)
  /-- R455: A triggered pass visits its next unit, and ends after COUNT units. -/
  | scrubTVisit (upsets : List Upset)
  /-- R456: A SCRUB_T_CTRL ABORT ends a triggered pass with ABORTED. -/
  | scrubAbort
  /-- R457: A 16 666.667 µs counting interval ends outside RUN and DEGRADED. -/
  | intervalEnd
  /-- R480: A Q_FREEZE_CTRL RESUME makes a FROZEN queue ACTIVE. -/
  | resume (queue : Nat)
  /-- R480: A Q_FREEZE_CTRL FLUSH empties a FROZEN queue and makes it ACTIVE. -/
  | flush (queue : Nat)
  /-- R483: A host push through QH_CTRL on a Bulk or Maintenance queue. -/
  | qhPush (queue : Nat)
  /-- R483: A host pop through QH_CTRL of a queue owned by node 0. -/
  | qhPop (queue : Nat)
  /-- R490: A Q_SEL write snapshots a descriptor into Q_SNAP. -/
  | qSelWrite (queue : Nat)
  /-- R497: The LOOP block judges the set and applies it or holds the last good values. -/
  | loopApply
  /-- R503: A write of VCM_CTRL.ENABLE = 1 starts the bridge driving, or is rejected. -/
  | vcmEnable
  /-- R504: A write of VCM_CTRL.ENABLE = 0 starts RAMP_OFF at VCM_SLEW. -/
  | vcmDisable
  /-- R505: A range request starts a handover at the present current, or is rejected. -/
  | vcmRange (coarse : Bool)
  /-- R504: A host write of VCM_TARGET gives a new target from the next update. -/
  | vcmTargetWrite (ua : Int)
  /-- R504: Every 312.5 ns the DAC code ramps toward the target in force. -/
  | vcmUpdate
  /-- R505: The range handover ends and the ramp resumes. -/
  | handoverEnd
  /-- R506: The sensed current differs from the code by more than 3 mA for 100 µs, so the bridge goes to Z. -/
  | vcmTrack
  /-- R506: The sensed current exceeds 170 mA and the bridge goes to Z within 1 µs. -/
  | vcmOvercurrent
  /-- R53: VDDVCM falls below 3.135 V; the bridge goes to Z and VCM_SUPPLY is recorded if the bridge was enabled. -/
  | vddvcmLow
  /-- R51: A reset or HOLD ramp reaches 0 mA and the bridge goes to Z. -/
  | vcmRampEnd
  /-- R509: A LENS_CAL_PROG GO programs the next free lens-calibration slot. -/
  | lensCalProg (key : Nat)
  /-- R597: A 20 µs fuse pulse ends and the fuse is verified at the program margin. -/
  | otpPulse (vppMv : Nat) (reads : Bool) (margin : Bool)
  /-- R511: Every 33 AON cycles PRIV_A and PRIV_B are sampled and the privacy state is updated. -/
  | privSample (a : Bool) (b : Bool)
  /-- R513: A PRIV_CTRL CLEAR with a valid key clears the fault latch, or is rejected. -/
  | privClear (key : Nat)
  /-- R514: A write of DISC_TIME is acted on only in HOLD. -/
  | privCfgWrite (discTime : Nat)
  /-- R525: An xSPI READ returns a response word and data, or zero-latency Glance data. -/
  | read (addr : Nat) (count : Nat)
  /-- R520: An xSPI WRITE carries bytes to ascending addresses. -/
  | write (addr : Nat) (bytes : List Byte)
  /-- R523: ENTER_8D switches the xSPI port to 8D-8D-8D. -/
  | enter8d
  /-- R523: EXIT_8D switches the xSPI port back to 1S-1S-1S. -/
  | exit8d
  /-- R524: An unknown opcode or bad extension byte ends the transaction without effect. -/
  | xspiBadCommand (opcode : Nat) (extension : Nat)
  /-- R524: XSPI_CS_N rises, ending the transaction; whole register words written in it act. -/
  | xspiCsRise
  /-- R522: A register fetch through the fabric completes and its block is held. -/
  | fetchComplete (port : Port)
  /-- R522: A held fetch block is discarded after 1 000 µs. -/
  | fetchExpire (port : Port)
  /-- R534: An I3C private write sets the read pointer and writes data. -/
  | i3cPrivateWrite (xfer : Nat × List Byte)
  /-- R534: An I3C private read returns bytes from the pointer, NACKed until the fetch completes. -/
  | i3cPrivateRead (xfer : Nat × Nat)
  /-- R531: An I²C transfer at the static address accesses registers with clock stretching. -/
  | i2cTransfer (write : Nat × List Byte) (count : Nat)
  /-- R534: An I²C stretch reaches 100 µs; SCL is released and 0xFF bytes are sent. -/
  | stretchTimeout
  /-- R533: CCC ENEC enables target events. -/
  | enec (bits : Nat)
  /-- R533: CCC DISEC disables target events. -/
  | disec (bits : Nat)
  /-- R533: CCC RSTDAA clears the dynamic address. -/
  | rstdaa
  /-- R533: CCC ENTDAA assigns a dynamic address by arbitration on the PID. -/
  | entdaa (da : Nat)
  /-- R531: CCC SETDASA assigns a dynamic address from the static address. -/
  | setdasa (addrs : Nat × Nat)
  /-- R533: CCC SETNEWDA changes the dynamic address. -/
  | setnewda (da : Nat)
  /-- R532: CCC SETMWL stores a maximum write length. -/
  | setmwl (n : Nat)
  /-- R532: CCC SETMRL stores a maximum read length. -/
  | setmrl (n : Nat)
  /-- R532: CCC GETMWL returns the maximum write length. -/
  | getmwl
  /-- R532: CCC GETMRL returns the maximum read length. -/
  | getmrl
  /-- R532: CCC GETPID returns the 48-bit PID. -/
  | getpid
  /-- R532: CCC GETBCR returns the BCR, 0x06. -/
  | getbcr
  /-- R532: CCC GETDCR returns the DCR, 0x00. -/
  | getdcr
  /-- R533: CCC GETSTATUS returns a status word reflecting nFAULT. -/
  | getstatus
  /-- R533: CCC ENTHDR is recognized and the transfer is ignored until the HDR exit pattern. -/
  | enthdr
  /-- R533: The target reset pattern resets only the I3C target logic. -/
  | targetReset
  /-- R533: Any other CCC addressed to the device is NACKed. -/
  | unsupportedCcc (code : Nat)
  /-- R535: A newly enabled interrupt bit raises an in-band interrupt with a 5-byte payload, retried until
  delivered. -/
  | ibiRequest (acked : Bool)
  /-- R538: A CSI_CTRL START in RUN or DEGRADED starts PLL_C and the CSI-2 outputs. -/
  | csiStart
  /-- R539: A CSI_CTRL STOP finishes the packet in progress and stops outputs. -/
  | csiStop
  /-- R538: PLL_C has not locked 200 µs after START, so outputs return to OFF. -/
  | pllCLockTimeout
  /-- R538: PLL_C lock and the initial deskew complete, and STATE becomes RUNNING. -/
  | csiDeskewDone
  /-- R541: The next packet of the frame being sent goes out on its virtual channel. -/
  | csiPacket
  /-- R546: TIME_CTRL SET_NOW loads TIME_SET into the timebase. -/
  | setNow
  /-- R546: TIME_CTRL ARM arms an epoch set at the next FSYNC_IN edge. -/
  | arm
  /-- R546: TIME_CTRL DISARM cancels an armed epoch set. -/
  | disarm
  /-- R545: A read of TIME_LO captures the timebase and holds its upper half. -/
  | timeLoRead (port : Port)
  /-- R183: IMG_CTRL START begins an image push, or is ignored. -/
  | start
  /-- R183: IMG_CTRL ABORT ends a push with ABORTED. -/
  | abort
  /-- R182: An aperture write byte is appended to the push and checked as the image arrives. -/
  | pushByte (b : Byte)
  /-- R183: IMG_TIMEOUT ms pass with no byte accepted, ending the push with TIMEOUT. -/
  | pushTimeout
  /-- R179: A flash read of a slot's header, trailer or body completes; slot B is tried if slot A fails. -/
  | flashReadDone (bytes : List Byte)
  /-- R185: The signature check ends. -/
  | verifyDone
  /-- R187: The admission checks end, passing or failing the image. -/
  | admitDone
  /-- R185: The region fills end; IMAGE_OK or HOT_READY becomes 1. -/
  | loadFillDone
  /-- R190: The clean-up after a failed or ended load completes and BUSY returns to 0. -/
  | loadCleanupDone
  /-- R192: At the first tick edge with HOT_READY and SWAP_ARM, the new image comes into force. -/
  | hotSwap
  /-- R152: An LC_CTRL write with a valid key starts a lifecycle transition burn, or is refused. -/
  | lcCtrl (key : Nat) (target : Nat)
  /-- R598: OTP PROGRAM burns and seals a FIXED region. -/
  | program (key : Nat) (region : Nat) (enc : Nat)
  /-- R600: OTP LOCK_WRITE burns a region's write-lock. -/
  | lockWrite (key : Nat) (region : Nat)
  /-- R600: OTP LOCK_READ burns a region's read-lock. -/
  | lockRead (key : Nat) (region : Nat)
  /-- R601: OTP ROLLBACK_ADVANCE burns rollback steps up to TARGET. -/
  | rollbackAdvance (key : Nat) (region : Nat)
  /-- R602: OTP CEILING_LOWER burns lowering fuses down to TARGET. -/
  | ceilingLower (key : Nat) (region : Nat)
  /-- R603: OTP MARGIN_SCAN starts a scan for weak and leaky fuses. -/
  | marginScan (key : Nat) (region : Nat)
  /-- R603: A margin scan completes and reports weak and leaky fuses. -/
  | marginScanDone (leaky : List Nat)
  /-- R604: OTP REBURN pulses every weak fuse of a region again. -/
  | reburn (key : Nat) (region : Nat)
  /-- R599: OTP ABORT stops an OTP_CTRL operation at the end of the pulse in progress. -/
  | otpAbort (key : Nat)
  /-- R617: FLT_CTRL FENCE fences a Vale. -/
  | fence (key : Nat) (vale : Nat)
  /-- R623: FLT_CTRL MOVER_RESET partially resets a Mover. -/
  | moverReset (key : Nat) (mover : Nat)
  /-- R624: At the first tick edge at least 2 µs after the reset, the Mover returns and its frozen queues resume. -/
  | moverReturn (mover : Nat)
  /-- R611: A W1C write to FLT_ACTIVE clears group bits unless a same-cycle recording holds them. -/
  | fltActiveClear (bits : Nat) (recording : Nat)
  /-- R616: FLT_STOP CLR clears the stop code. -/
  | fltStopClr
  /-- R609: FLT_FIRST CLR clears the first-fault code. -/
  | fltFirstClr
  /-- R111: OVERRUN_LOG CLR clears the overrun count and entry. -/
  | overrunLogClr
  /-- R376: RT_CTRL CLR_COUNTS clears LOOP_STATUS. -/
  | rtClrCounts
  /-- R323: CLR_PEAK in VALE_EVENTS or SAD_EVENTS clears the cycle peak. -/
  | clrPeak (lane : Nat)
  /-- R244: A TER_SEL write snapshots the selected group and slice. -/
  | terSelWrite (group : Nat) (slice : Nat)
  /-- R320: A REQ_MHZ write is rounded and bounded, taking effect at the next tick. -/
  | reqMhzWrite (vale : Nat) (mhz : Nat)
  /-- R628: Every 1 µs the rail comparators sample and set supply conditions and faults. -/
  | supplySample (mv : List Nat)
  /-- R629: A rail has stayed in range through 8 whole ticks, so its condition ends. -/
  | supplyConditionEnd (bit : Nat)
  /-- R408: A host write to the Basin window stores bytes, or is forbidden for Basins 0–3 outside HOLD. -/
  | hostBasinWrite (offset : Nat) (bytes : List Byte)
  /-- R418: A host write to the Plain window gathers bytes into the line buffer and writes full lines. -/
  | hostPlainWrite (offset : Nat) (bytes : List Byte)
  /-- R416: A host read of the Basin or Plain window returns data, with 0xFF for poisoned or unwritten bytes. -/
  | hostWindowRead (addr : Nat) (count : Nat)
  /-- R19: A write to a register with no row of its own stores its fields, which take effect as marked. -/
  | registerWrite (addr : Nat) (value : Word)
  /-- R533: The HDR exit pattern arrives on the I3C bus after an ENTHDR, and the target resumes taking SDR
  transfers. -/
  | hdrExitPattern
  /-- R398: The island raised for an EXACT unit reaches SAFE_MV, and the held unit starts its first wave. -/
  | islandAtSafeMv (vale : Nat)
  deriving DecidableEq, Repr

end Sys2Proof
end

