-- ==== Sys2Proof/Decode.lean ====
section
/-!
DEFINITION. Decode.lean: the commands that a table word spells. No row of the opcode table gives bits: a command is an
event, a pin level or a transfer, and its operands come with it.
-/
namespace Sys2Proof

/-- The command that the table's bits spell: none. -/
def decodeTableWord (_nbits _w : Nat) : Option Instr := none

end Sys2Proof
end

