-- ==== Sys2Proof/Machine/Sparse.lean ====
section
/-!
DEFINITION. Machine/Sparse.lean: a map from natural-number keys held as a list in ONE canonical form.
Keys rise strictly and no entry equals what an unlisted key reads as, so equal maps are equal lists.
The register file, every memory and every per-line store of the model is one of these.
-/
namespace Sys2Proof.Machine

/-- What is listed at key `k`, if anything. -/
def Sparse.find {α : Type} : List (Nat × α) → Nat → Option α
  | [], _ => none
  | (j, v) :: m, k => if j = k then some v else Sparse.find m k

/-- The value at `k`, where unlisted keys read as `d k`. -/
def Sparse.get {α : Type} (d : Nat → α) (m : List (Nat × α)) (k : Nat) : α :=
  (Sparse.find m k).getD (d k)

/-- List `v` at `k`, keeping the keys rising. -/
def Sparse.insert {α : Type} : List (Nat × α) → Nat → α → List (Nat × α)
  | [], k, v => [(k, v)]
  | (j, w) :: m, k, v =>
    if k < j then (k, v) :: (j, w) :: m
    else if k = j then (k, v) :: m
    else (j, w) :: Sparse.insert m k v

/-- Unlist `k`. -/
def Sparse.erase {α : Type} : List (Nat × α) → Nat → List (Nat × α)
  | [], _ => []
  | (j, w) :: m, k => if j = k then Sparse.erase m k else (j, w) :: Sparse.erase m k

/-- Make `k` read as `v`: a value equal to what an unlisted key reads as is not listed. -/
def Sparse.set {α : Type} [DecidableEq α] (d : Nat → α) (m : List (Nat × α)) (k : Nat) (v : α) :
    List (Nat × α) :=
  if v = d k then Sparse.erase m k else Sparse.insert m k v

/-- Every key of the list is above `b`, and keys rise strictly. -/
def Sparse.rising {α : Type} : Option Nat → List (Nat × α) → Bool
  | _, [] => true
  | none, (k, _) :: m => Sparse.rising (some k) m
  | some b, (k, _) :: m => decide (b < k) && Sparse.rising (some k) m

/-- No entry equals what an unlisted key reads as. -/
def Sparse.lean {α : Type} [DecidableEq α] (d : Nat → α) : List (Nat × α) → Bool
  | [] => true
  | (k, v) :: m => decide (v ≠ d k) && Sparse.lean d m

/-- The canonical form: strictly rising keys, nothing listed at its own default. -/
def Sparse.wf {α : Type} [DecidableEq α] (d : Nat → α) (m : List (Nat × α)) : Bool :=
  Sparse.rising none m && Sparse.lean d m

end Sys2Proof.Machine
end

