-- ==== Sys2Proof/Machine/Registers.lean ====
section
/-!
DEFINITION. Machine/Registers.lean: the register map (R657), one row per register or array of registers, and the
names of every field. The masks of a row are the access codes of R17 read off the register tables of the chapters;
the reset words are those of the Register Index (R659).
-/
namespace Sys2Proof.Machine

/-- One register, or an array of like registers, of the map. -/
structure RegRow where
  /-- Address of the first word. -/
  addr : Nat
  /-- Words in the array; 1 for a single register. -/
  cnt : Nat
  /-- Copies of the block (six Vales, two Movers); 1 elsewhere. -/
  reps : Nat
  /-- Distance between copies. -/
  stride : Nat
  /-- The word read from the exit from RESET_HOLD (R659). -/
  reset : Nat
  /-- Bits a write stores (RW). -/
  rw : Nat
  /-- Bits a written 1 clears (W1C). -/
  w1c : Nat
  /-- Bits that read 0 always (WO, W1S). -/
  hid : Nat
  /-- Bits that take effect at the next tick edge (R19). -/
  tick : Nat
  deriving DecidableEq, Repr

/-- A field of a register: the word's address, its lowest bit and its width (R10). -/
structure Fld where
  a : Nat
  lo : Nat
  w : Nat
  deriving DecidableEq, Repr

/-- The same field of element `i` of an array of registers (R657). -/
abbrev Fld.el (f : Fld) (i : Nat) : Fld := { f with a := f.a + 4 * i }

/-- The same field of Vale `n`'s block (R323). -/
abbrev Fld.vale (f : Fld) (n : Nat) : Fld := { f with a := f.a + 0x1000 * n }

/-- The same field of Mover `m`'s block (R431). -/
abbrev Fld.mov (f : Fld) (m : Nat) : Fld := { f with a := f.a + 0x40 * m }

/-- Two fields share no bit. -/
def Fld.apart (d e : Fld) : Bool := d.a != e.a || decide (d.lo + d.w ≤ e.lo) || decide (e.lo + e.w ≤ d.lo)

/-- The rows of the DEVICE block (R157, R158, R4). -/
def deviceRows : List RegRow := [
  ⟨0x0, 1, 1, 0x0, 0x6050, 0x0, 0x0, 0x0, 0x0⟩,
  ⟨0x4, 1, 1, 0x0, 0xA1, 0x0, 0x0, 0x0, 0x0⟩,
  ⟨0x8, 1, 1, 0x0, 0x10003, 0x0, 0x0, 0x0, 0x0⟩,
  ⟨0xC, 1, 1, 0x0, 0x0, 0x0, 0x0, 0xFFFF000F, 0x0⟩,
  ⟨0x10, 1, 1, 0x0, 0x1, 0x0, 0x1FF, 0x0, 0x0⟩,
  ⟨0x14, 1, 1, 0x0, 0x0, 0x0, 0x0, 0x0, 0x0⟩,
  ⟨0x18, 1, 1, 0x0, 0x0, 0x0, 0x0, 0xFFFF0007, 0x0⟩,
  ⟨0x1C, 1, 1, 0x0, 0x0, 0x0, 0x0, 0x0, 0x0⟩,
  ⟨0x20, 1, 1, 0x0, 0x0, 0x0, 0x0, 0x0, 0x0⟩,
  ⟨0x24, 1, 1, 0x0, 0x0, 0x0, 0x0, 0x0, 0x0⟩,
  ⟨0x28, 1, 1, 0x0, 0x0, 0x0, 0x0, 0x0, 0x0⟩,
  ⟨0x30, 1, 1, 0x0, 0x0, 0x0, 0x0, 0x0, 0x0⟩,
  ⟨0x34, 1, 1, 0x0, 0x0, 0x0, 0x0, 0x0, 0x0⟩,
  ⟨0x38, 1, 1, 0x0, 0x0, 0x0, 0x0, 0x0, 0x0⟩,
  ⟨0x3C, 1, 1, 0x0, 0x0, 0x0, 0x0, 0x0, 0x0⟩,
  ⟨0x40, 16, 1, 0x0, 0x0, 0x0, 0x0, 0xFFFFFFFF, 0x0⟩]

/-- The rows of the TICK block (R111). -/
def tickRows : List RegRow := [
  ⟨0x1000, 1, 1, 0x0, 0x702000, 0x0, 0x0, 0x0, 0x0⟩,
  ⟨0x1004, 1, 1, 0x0, 0x0, 0x0, 0x0, 0x0, 0x0⟩,
  ⟨0x1008, 1, 1, 0x0, 0x80A000, 0xFFFFFFF, 0x0, 0x0, 0xFFFFFFF⟩,
  ⟨0x100C, 1, 1, 0x0, 0x8, 0xFF, 0x0, 0x0, 0xFF⟩,
  ⟨0x1010, 1, 1, 0x0, 0x0, 0x0, 0x0, 0x0, 0x0⟩,
  ⟨0x1014, 1, 1, 0x0, 0x0, 0x0, 0x0, 0x0, 0x0⟩,
  ⟨0x1018, 1, 1, 0x0, 0x0, 0x0, 0x1F, 0x0, 0x0⟩,
  ⟨0x101C, 1, 1, 0x0, 0x3, 0x0, 0x0, 0x0, 0x0⟩,
  ⟨0x1020, 1, 1, 0x0, 0x0, 0x0, 0x0, 0x0, 0x0⟩,
  ⟨0x1024, 1, 1, 0x0, 0xFFFF, 0x0, 0x0, 0x80000000, 0x0⟩]

/-- The rows of the IMAGE block (R194). -/
def imageRows : List RegRow := [
  ⟨0x2000, 1, 1, 0x0, 0xFFFF0000, 0x0, 0x0, 0x0, 0x0⟩,
  ⟨0x2004, 1, 1, 0x0, 0x4, 0x4, 0x0, 0x3, 0x4⟩,
  ⟨0x2008, 1, 1, 0x0, 0x0, 0x0, 0x0, 0x0, 0x0⟩,
  ⟨0x200C, 1, 1, 0x0, 0x0, 0x0, 0x0, 0x0, 0x0⟩,
  ⟨0x2010, 1, 1, 0x0, 0x0, 0x0, 0x0, 0x0, 0x0⟩,
  ⟨0x2014, 1, 1, 0x0, 0x3E8, 0xFFFF, 0x0, 0x0, 0x0⟩,
  ⟨0x2018, 1, 1, 0x0, 0x0, 0x0, 0x0, 0x0, 0x0⟩,
  ⟨0x201C, 1, 1, 0x0, 0x0, 0x0, 0x0, 0x0, 0x0⟩,
  ⟨0x2020, 1, 1, 0x0, 0x0, 0x0, 0x0, 0x0, 0x0⟩]

/-- The rows of the PIXEL block (R222). -/
def pixelRows : List RegRow := [
  ⟨0x3000, 1, 1, 0x0, 0x0, 0x0, 0x0, 0x0, 0x0⟩,
  ⟨0x3004, 1, 1, 0x0, 0x0, 0x0, 0x1F, 0x0, 0x0⟩,
  ⟨0x3008, 1, 1, 0x0, 0x80, 0xFD, 0x0, 0x0, 0xFD⟩,
  ⟨0x300C, 1, 1, 0x0, 0xC800, 0xFFFFFF, 0x0, 0x0, 0xFFFFFF⟩,
  ⟨0x3010, 1, 1, 0x0, 0x640, 0xFFFFFF, 0x0, 0x0, 0xFFFFFF⟩,
  ⟨0x3014, 1, 1, 0x0, 0x0, 0x3, 0x0, 0x0, 0x3⟩,
  ⟨0x3018, 1, 1, 0x0, 0x0, 0x0, 0x0, 0x0, 0x0⟩,
  ⟨0x301C, 1, 1, 0x0, 0x0, 0x0, 0x0, 0x0, 0x0⟩,
  ⟨0x3020, 1, 1, 0x0, 0x0, 0x0, 0x0, 0x0, 0x0⟩,
  ⟨0x3024, 1, 1, 0x0, 0x0, 0x0, 0x0, 0x0, 0x0⟩,
  ⟨0x3028, 1, 1, 0x0, 0x0, 0x0, 0x0, 0x0, 0x0⟩,
  ⟨0x302C, 1, 1, 0x0, 0x0, 0x0, 0x0, 0x0, 0x0⟩,
  ⟨0x3030, 1, 1, 0x0, 0x17FF0000, 0x1FFF1FFF, 0x0, 0x0, 0x1FFF1FFF⟩,
  ⟨0x3034, 1, 1, 0x0, 0x0, 0xFFFF, 0x0, 0x0, 0xFFFF⟩,
  ⟨0x3038, 1, 1, 0x0, 0x800, 0xFFF, 0x0, 0x0, 0xFFF⟩,
  ⟨0x303C, 1, 1, 0x0, 0x0, 0x0, 0x0, 0x0, 0x0⟩,
  ⟨0x3040, 1, 1, 0x0, 0x0, 0x0, 0x0, 0x0, 0x0⟩,
  ⟨0x3044, 1, 1, 0x0, 0x0, 0x0, 0x0, 0x0, 0x0⟩,
  ⟨0x3048, 1, 1, 0x0, 0x300034, 0xFFFF00FF, 0x0, 0x0, 0xFFFF00FF⟩,
  ⟨0x304C, 1, 1, 0x0, 0x3C003C0, 0x0, 0x0, 0x0, 0x0⟩,
  ⟨0x3080, 16, 1, 0x0, 0x30, 0xFFFF, 0x0, 0x0, 0xFFFF⟩]

/-- The rows of the TERRACE block (R244). -/
def terraceRows : List RegRow := [
  ⟨0x4000, 1, 1, 0x0, 0x0, 0x0, 0x0, 0x0, 0x0⟩,
  ⟨0x4004, 1, 1, 0x0, 0x0, 0x0, 0x0, 0x0, 0x0⟩,
  ⟨0x4008, 1, 1, 0x0, 0x40, 0xF1, 0x0, 0x0, 0xF1⟩,
  ⟨0x400C, 1, 1, 0x0, 0x0, 0x0, 0x7, 0x0, 0x0⟩,
  ⟨0x4010, 1, 1, 0x0, 0x0, 0x0, 0x0, 0x0, 0x0⟩,
  ⟨0x4014, 1, 1, 0x0, 0x0, 0x701FF, 0x0, 0x0, 0x0⟩,
  ⟨0x4018, 1, 1, 0x0, 0x71F, 0x0, 0x0, 0x0, 0x0⟩,
  ⟨0x401C, 1, 1, 0x0, 0x0, 0x0, 0x0, 0x0, 0x0⟩,
  ⟨0x4020, 1, 1, 0x0, 0x8000, 0x0, 0x0, 0x0, 0x0⟩,
  ⟨0x4024, 1, 1, 0x0, 0x0, 0x0, 0x0, 0x0, 0x0⟩,
  ⟨0x4028, 1, 1, 0x0, 0x0, 0x0, 0x0, 0x0, 0x0⟩,
  ⟨0x402C, 1, 1, 0x0, 0x0, 0x0, 0x0, 0x0, 0x0⟩,
  ⟨0x4030, 1, 1, 0x0, 0x700000, 0x0, 0x0, 0x0, 0x0⟩,
  ⟨0x4034, 1, 1, 0x0, 0x0, 0x0, 0x0, 0x0, 0x0⟩,
  ⟨0x4100, 64, 1, 0x0, 0x0, 0x0, 0x0, 0x0, 0x0⟩]

/-- The rows of the SURVEY block (R261). -/
def surveyRows : List RegRow := [
  ⟨0x5000, 1, 1, 0x0, 0x6000, 0x0, 0x0, 0x0, 0x0⟩,
  ⟨0x5004, 1, 1, 0x0, 0x1000, 0x7F13, 0x0, 0x0, 0x0⟩,
  ⟨0x5008, 1, 1, 0x0, 0x0, 0xFFFFFF, 0x0, 0x0, 0x0⟩,
  ⟨0x500C, 1, 1, 0x0, 0x0, 0x7, 0x0, 0x0, 0x0⟩,
  ⟨0x5010, 1, 1, 0x0, 0x0, 0x0, 0x0, 0xB, 0x0⟩,
  ⟨0x5014, 1, 1, 0x0, 0x0, 0xFFF0FFF, 0x0, 0x0, 0xFFF0FFF⟩,
  ⟨0x5018, 1, 1, 0x0, 0x0, 0x0, 0x3D, 0x0, 0x0⟩,
  ⟨0x501C, 1, 1, 0x0, 0x0, 0x3F, 0x0, 0x0, 0x0⟩,
  ⟨0x5020, 1, 1, 0x0, 0x1F, 0x0, 0x0, 0x0, 0x0⟩,
  ⟨0x5024, 1, 1, 0x0, 0x0, 0x0, 0x0, 0x0, 0x0⟩,
  ⟨0x5028, 1, 1, 0x0, 0x0, 0x0, 0x0, 0x0, 0x0⟩,
  ⟨0x502C, 1, 1, 0x0, 0x0, 0x0, 0x0, 0x0, 0x0⟩,
  ⟨0x5030, 1, 1, 0x0, 0x0, 0x0, 0x0, 0x0, 0x0⟩,
  ⟨0x5034, 1, 1, 0x0, 0x0, 0x0, 0x0, 0x0, 0x0⟩,
  ⟨0x5038, 1, 1, 0x0, 0x0, 0xFFFFFF, 0x0, 0x0, 0x0⟩,
  ⟨0x503C, 1, 1, 0x0, 0x0, 0x0, 0xFFFFFF, 0x0, 0x0⟩,
  ⟨0x5080, 24, 1, 0x0, 0x0, 0x0, 0x0, 0x0, 0x0⟩,
  ⟨0x5100, 24, 1, 0x0, 0xFFFF0000, 0xFFFFFFFF, 0x0, 0x0, 0x0⟩]

/-- The rows of the FRONT block (R290). -/
def frontRows : List RegRow := [
  ⟨0x6000, 1, 1, 0x0, 0x1FFF0000, 0x0, 0x0, 0x0, 0x0⟩,
  ⟨0x6004, 1, 1, 0x0, 0x1F, 0x1F, 0x0, 0x0, 0x1F⟩,
  ⟨0x6008, 1, 1, 0x0, 0x0, 0x0, 0x7, 0x0, 0x0⟩,
  ⟨0x600C, 1, 1, 0x0, 0x0, 0x0, 0x0, 0x0, 0x0⟩,
  ⟨0x6010, 3, 1, 0x0, 0x0, 0x0, 0x0, 0x0, 0x0⟩,
  ⟨0x601C, 1, 1, 0x0, 0x6000300, 0xFFFFFFFF, 0x0, 0x0, 0xFFFFFFFF⟩,
  ⟨0x6020, 1, 1, 0x0, 0x2000B000, 0xFFFFFFFF, 0x0, 0x0, 0xFFFFFFFF⟩,
  ⟨0x6024, 1, 1, 0x0, 0x2000B000, 0xFFFFFFFF, 0x0, 0x0, 0xFFFFFFFF⟩,
  ⟨0x6028, 1, 1, 0x0, 0xEE00, 0xFFFF, 0x0, 0x0, 0xFFFF⟩,
  ⟨0x602C, 1, 1, 0x0, 0x300, 0xFFFF, 0x0, 0x0, 0xFFFF⟩,
  ⟨0x6030, 1, 1, 0x0, 0x6030, 0xFFFF, 0x0, 0x0, 0xFFFF⟩,
  ⟨0x6034, 1, 1, 0x0, 0x60, 0xFF, 0x0, 0x0, 0xFF⟩,
  ⟨0x6038, 1, 1, 0x0, 0x20, 0xFF, 0x0, 0x0, 0xFF⟩,
  ⟨0x603C, 1, 1, 0x0, 0x28000A00, 0xFFFFFFFF, 0x0, 0x0, 0xFFFFFFFF⟩,
  ⟨0x6040, 1, 1, 0x0, 0x1770, 0xFFFFFF, 0x0, 0x0, 0xFFFFFF⟩,
  ⟨0x6050, 4, 1, 0x0, 0x1000, 0xFFFF, 0x0, 0x0, 0xFFFF⟩,
  ⟨0x6060, 4, 1, 0x0, 0x4000, 0xFFFF, 0x0, 0x0, 0xFFFF⟩,
  ⟨0x6070, 1, 1, 0x0, 0x4000, 0xFFFF, 0x0, 0x0, 0xFFFF⟩,
  ⟨0x6080, 1, 1, 0x0, 0x0, 0x0, 0x0, 0x0, 0x0⟩,
  ⟨0x6084, 1, 1, 0x0, 0x0, 0x0, 0x0, 0x0, 0x0⟩,
  ⟨0x6088, 1, 1, 0x0, 0x0, 0x0, 0x0, 0x0, 0x0⟩,
  ⟨0x608C, 1, 1, 0x0, 0x0, 0x0, 0x0, 0x0, 0x0⟩,
  ⟨0x6090, 1, 1, 0x0, 0x0, 0x0, 0x0, 0x0, 0x0⟩]

/-- The rows of the SADDLE block (R349). -/
def saddleRows : List RegRow := [
  ⟨0x7000, 1, 1, 0x0, 0xFFFF0000, 0x0, 0x0, 0x0, 0x0⟩,
  ⟨0x7004, 1, 1, 0x0, 0x0, 0x0, 0x3, 0x80000000, 0x0⟩,
  ⟨0x7008, 1, 1, 0x0, 0xFFFFFFFF, 0x0, 0x0, 0x0, 0x0⟩,
  ⟨0x700C, 1, 1, 0x0, 0x0, 0x0, 0x0, 0x0, 0x0⟩,
  ⟨0x7010, 1, 1, 0x0, 0x0, 0x0, 0x0, 0x0, 0x0⟩,
  ⟨0x7014, 1, 1, 0x0, 0x0, 0x0, 0x0, 0x0, 0x0⟩,
  ⟨0x7018, 1, 1, 0x0, 0x0, 0x0, 0x0, 0x0, 0x0⟩,
  ⟨0x701C, 1, 1, 0x0, 0x0, 0x0, 0x0, 0x0, 0x0⟩]

/-- The rows of the VALE block (R323, R403). -/
def valeRows : List RegRow := [
  ⟨0x8000, 1, 6, 0x1000, 0xFFFF0000, 0x0, 0x0, 0x0, 0x0⟩,
  ⟨0x8004, 1, 6, 0x1000, 0x2580258, 0x3FF, 0x0, 0x0, 0x3FF⟩,
  ⟨0x8008, 1, 6, 0x1000, 0x0, 0x0, 0x0, 0x0, 0x0⟩,
  ⟨0x800C, 1, 6, 0x1000, 0x0, 0x0, 0x7, 0x80000000, 0x0⟩,
  ⟨0x8010, 1, 6, 0x1000, 0xFFFFFFFF, 0x0, 0x0, 0x0, 0x0⟩,
  ⟨0x8014, 1, 6, 0x1000, 0x0, 0x0, 0x0, 0x0, 0x0⟩,
  ⟨0x8018, 1, 6, 0x1000, 0x0, 0x0, 0x0, 0x0, 0x0⟩,
  ⟨0x801C, 1, 6, 0x1000, 0x0, 0x0, 0x0, 0x0, 0x0⟩,
  ⟨0x8800, 1, 6, 0x1000, 0x100000, 0x0, 0x0, 0x0, 0x0⟩,
  ⟨0x8804, 1, 6, 0x1000, 0x4408400C, 0xFFFFFF1F, 0x0, 0x0, 0xFFFFFF1F⟩,
  ⟨0x8808, 1, 6, 0x1000, 0x0, 0x0, 0x0, 0x0, 0x0⟩,
  ⟨0x880C, 1, 6, 0x1000, 0x0, 0x0, 0x0, 0x0, 0x0⟩,
  ⟨0x8810, 1, 6, 0x1000, 0x0, 0x0, 0x0, 0x0, 0x0⟩,
  ⟨0x8814, 1, 6, 0x1000, 0x0, 0x0, 0xF, 0x0, 0x0⟩,
  ⟨0x8818, 1, 6, 0x1000, 0xFFFF0000, 0x0, 0x0, 0x0, 0x0⟩,
  ⟨0x881C, 1, 6, 0x1000, 0x0, 0x0, 0x0, 0x0, 0x0⟩,
  ⟨0x8820, 1, 6, 0x1000, 0x0, 0x0, 0x0, 0x0, 0x0⟩]

/-- The rows of the PASS block (R490). -/
def passRows : List RegRow := [
  ⟨0xE000, 1, 1, 0x0, 0xFFFFF, 0x0, 0x0, 0x0, 0x0⟩,
  ⟨0xE004, 1, 1, 0x0, 0x1110, 0x0, 0x0, 0x0, 0x0⟩,
  ⟨0xE008, 1, 1, 0x0, 0x0, 0x0, 0x3, 0x0, 0x0⟩,
  ⟨0xE00C, 1, 1, 0x0, 0x0, 0x0, 0x0, 0x0, 0x0⟩,
  ⟨0xE010, 1, 1, 0x0, 0x0, 0x0, 0x0, 0x0, 0x0⟩,
  ⟨0xE020, 1, 1, 0x0, 0x0, 0x0, 0x0, 0x0, 0x0⟩,
  ⟨0xE040, 1, 1, 0x0, 0x0, 0xFFFF, 0x0, 0x0, 0x0⟩,
  ⟨0xE044, 8, 1, 0x0, 0x0, 0x0, 0x0, 0x0, 0x0⟩,
  ⟨0xE064, 1, 1, 0x0, 0x0, 0x0, 0x3F, 0x0, 0x0⟩,
  ⟨0xE068, 1, 1, 0x0, 0xFFFF, 0x0, 0x0, 0x0, 0x0⟩,
  ⟨0xE06C, 1, 1, 0x0, 0x0, 0x0, 0x0, 0x3FFFF, 0x0⟩,
  ⟨0xE070, 1, 1, 0x0, 0x0, 0x0, 0x0, 0x0, 0x0⟩,
  ⟨0xE080, 1, 1, 0x0, 0x0, 0x0, 0x0, 0x3FFFF, 0x0⟩,
  ⟨0xE084, 1, 1, 0x0, 0x0, 0x0, 0x0, 0x0, 0x0⟩,
  ⟨0xE0C0, 16, 1, 0x0, 0x0, 0xFFFFFFFF, 0x0, 0x0, 0x0⟩,
  ⟨0xE100, 1, 1, 0x0, 0x0, 0x0, 0x0, 0x0, 0x0⟩,
  ⟨0xE104, 1, 1, 0x0, 0x0, 0x0, 0x0, 0x0, 0x0⟩,
  ⟨0xE108, 1, 1, 0x0, 0x0, 0x0, 0x0, 0x0, 0x0⟩,
  ⟨0xE10C, 1, 1, 0x0, 0x0, 0x0, 0x0, 0x0, 0x0⟩]

/-- The rows of the MEMORY block (R376, R431). -/
def memoryRows : List RegRow := [
  ⟨0xFC00, 1, 1, 0x0, 0x0, 0x0, 0x0, 0x0, 0x0⟩,
  ⟨0xFC04, 1, 1, 0x0, 0x0, 0x1, 0x0, 0x2, 0x1⟩,
  ⟨0xFC08, 1, 1, 0x0, 0x0, 0x0, 0xF, 0x0, 0x0⟩,
  ⟨0xFC0C, 1, 1, 0x0, 0x0, 0x3F0F, 0x0, 0x0, 0x0⟩,
  ⟨0xFC10, 1, 1, 0x0, 0x0, 0x0, 0x0, 0x0, 0x0⟩,
  ⟨0xFC14, 1, 1, 0x0, 0x0, 0x0, 0x0, 0x0, 0x0⟩,
  ⟨0xFC18, 1, 1, 0x0, 0xFF00, 0x0, 0x0, 0x0, 0x0⟩,
  ⟨0xFC1C, 1, 1, 0x0, 0x0, 0x0, 0x0, 0x0, 0x0⟩,
  ⟨0xFD00, 64, 1, 0x0, 0xFFFF, 0x0, 0x0, 0x0, 0x0⟩,
  ⟨0xFE00, 16, 1, 0x0, 0x0, 0xFFFFFFFF, 0x0, 0x0, 0xFFFFFFFF⟩,
  ⟨0xFE40, 1, 1, 0x0, 0x0, 0x0, 0x0, 0x0, 0x0⟩,
  ⟨0xF000, 1, 1, 0x0, 0x0, 0x0, 0x0, 0x0, 0x0⟩,
  ⟨0xF004, 1, 1, 0x0, 0x0, 0x0, 0x1F, 0x0, 0x0⟩,
  ⟨0xF008, 1, 1, 0x0, 0x0, 0x0, 0x0, 0x0, 0x0⟩,
  ⟨0xF00C, 1, 1, 0x0, 0x0, 0x0, 0x0, 0x0, 0x0⟩,
  ⟨0xF010, 1, 1, 0x0, 0x0, 0x0, 0x0, 0x0, 0x0⟩,
  ⟨0xF014, 1, 1, 0x0, 0xFFFFFFFF, 0x0, 0x0, 0x0, 0x0⟩,
  ⟨0xF018, 1, 1, 0x0, 0xFFFFFFFF, 0x0, 0x0, 0x0, 0x0⟩,
  ⟨0xF01C, 1, 1, 0x0, 0x0, 0x0, 0x0, 0x0, 0x0⟩,
  ⟨0xF100, 1, 2, 0x40, 0xFFFF0000, 0x0, 0x0, 0x0, 0x0⟩,
  ⟨0xF104, 1, 2, 0x40, 0xFFFFFFFF, 0x0, 0x0, 0x0, 0x0⟩,
  ⟨0xF108, 1, 2, 0x40, 0x0, 0x0, 0x0, 0x0, 0x0⟩,
  ⟨0xF10C, 1, 2, 0x40, 0x0, 0x0, 0x0, 0x0, 0x0⟩,
  ⟨0xF110, 1, 2, 0x40, 0x0, 0x0, 0x0, 0x0, 0x0⟩]

/-- The rows of the ECC block (R459). -/
def eccRows : List RegRow := [
  ⟨0x10000, 1, 1, 0x0, 0xF00, 0x0, 0x0, 0x0, 0x0⟩,
  ⟨0x10004, 1, 1, 0x0, 0x0, 0x0, 0x0, 0xFFFF001F, 0x0⟩,
  ⟨0x10008, 1, 1, 0x0, 0x0, 0x0, 0x7F, 0x0, 0x0⟩,
  ⟨0x1000C, 1, 1, 0x0, 0x0, 0x0, 0x0, 0x0, 0x0⟩,
  ⟨0x10010, 1, 1, 0x0, 0x0, 0x0, 0x0, 0x0, 0x0⟩,
  ⟨0x10014, 1, 1, 0x0, 0x0, 0x0, 0x0, 0x0, 0x0⟩,
  ⟨0x10018, 1, 1, 0x0, 0x3C000000, 0x0, 0x0, 0x0, 0x0⟩,
  ⟨0x1001C, 1, 1, 0x0, 0x4000040, 0xFFFFFFFF, 0x0, 0x0, 0xFFFFFFFF⟩,
  ⟨0x10020, 1, 1, 0x0, 0x3E81000, 0xFFFFFFFF, 0x0, 0x0, 0x0⟩,
  ⟨0x10024, 1, 1, 0x0, 0x0, 0x0, 0x0, 0x0, 0x0⟩,
  ⟨0x10028, 1, 1, 0x0, 0xFFFFFFFF, 0x0, 0x0, 0x0, 0x0⟩,
  ⟨0x10040, 10, 1, 0x0, 0x0, 0x0, 0x0, 0x0, 0x0⟩,
  ⟨0x10100, 1, 1, 0x0, 0x3C0001, 0xFFFFFFFF, 0x0, 0x0, 0xFFFFFFFF⟩,
  ⟨0x10104, 1, 1, 0x0, 0x0, 0x0, 0x0, 0x0, 0x0⟩,
  ⟨0x10108, 1, 1, 0x0, 0x0, 0x0, 0x0, 0x0, 0x0⟩,
  ⟨0x10110, 1, 1, 0x0, 0x0, 0x8, 0x0, 0x3, 0x0⟩,
  ⟨0x10114, 1, 1, 0x0, 0x0, 0xFFFFFFFF, 0x0, 0x0, 0x0⟩,
  ⟨0x10118, 1, 1, 0x0, 0x0, 0xFFFFFFFF, 0x0, 0x0, 0x0⟩,
  ⟨0x1011C, 1, 1, 0x0, 0x0, 0x0, 0x0, 0x0, 0x0⟩,
  ⟨0x10120, 1, 1, 0x0, 0x0, 0x0, 0x0, 0x0, 0x0⟩,
  ⟨0x10124, 1, 1, 0x0, 0x0, 0x0, 0x0, 0x0, 0x0⟩,
  ⟨0x10128, 1, 1, 0x0, 0x0, 0x0, 0x0, 0x0, 0x0⟩,
  ⟨0x1012C, 1, 1, 0x0, 0xFFFFFFFF, 0x0, 0x0, 0x0, 0x0⟩,
  ⟨0x10130, 1, 1, 0x0, 0xFFFFFFFF, 0x0, 0x0, 0x0, 0x0⟩,
  ⟨0x10134, 1, 1, 0x0, 0x0, 0x0, 0x3, 0x0, 0x0⟩]

/-- The rows of the LOOP block (R516). -/
def loopRows : List RegRow := [
  ⟨0x11000, 1, 1, 0x0, 0x0, 0x0, 0x0, 0x0, 0x0⟩,
  ⟨0x11004, 1, 1, 0x0, 0x3C00, 0xFF01, 0x0, 0x0, 0xFF01⟩,
  ⟨0x11008, 1, 1, 0x0, 0x0, 0x0, 0x7F, 0x0, 0x0⟩,
  ⟨0x1100C, 1, 1, 0x0, 0x0, 0x0, 0x0, 0x0, 0x0⟩,
  ⟨0x11020, 1, 1, 0x0, 0x0, 0x3, 0x0, 0x0, 0x0⟩,
  ⟨0x11024, 1, 1, 0x0, 0x0, 0xFFFFFF, 0x0, 0x0, 0x0⟩,
  ⟨0x11028, 1, 1, 0x0, 0x14, 0xFFF, 0x0, 0x0, 0x0⟩,
  ⟨0x1102C, 1, 1, 0x0, 0x0, 0x0, 0x0, 0x0, 0x0⟩,
  ⟨0x11030, 1, 1, 0x0, 0x0, 0x0, 0x0, 0x0, 0x0⟩,
  ⟨0x11034, 1, 1, 0x0, 0x0, 0xFFFFFF, 0x0, 0x0, 0xFFFFFF⟩,
  ⟨0x11038, 1, 1, 0x0, 0xC350, 0xFFFFFF, 0x0, 0x0, 0xFFFFFF⟩,
  ⟨0x11040, 1, 1, 0x0, 0x1F0000, 0x0, 0x0, 0x0, 0x0⟩,
  ⟨0x11044, 1, 1, 0x0, 0x0, 0xF, 0x0, 0x0, 0x0⟩,
  ⟨0x11048, 1, 1, 0x0, 0x0, 0x0, 0x0, 0x0, 0x0⟩,
  ⟨0x1104C, 1, 1, 0x0, 0x0, 0x0, 0x0, 0x0, 0x0⟩,
  ⟨0x11050, 1, 1, 0x0, 0x0, 0xFFFFFFFF, 0x0, 0x0, 0x0⟩,
  ⟨0x11054, 1, 1, 0x0, 0x0, 0xFFFFFFFF, 0x0, 0x0, 0x0⟩,
  ⟨0x11058, 1, 1, 0x0, 0x0, 0x0, 0x0, 0xFFFF0001, 0x0⟩,
  ⟨0x11080, 1, 1, 0x0, 0x18, 0x0, 0x0, 0x0, 0x0⟩,
  ⟨0x11084, 1, 1, 0x0, 0xA, 0xFF, 0x0, 0x0, 0x0⟩,
  ⟨0x11088, 1, 1, 0x0, 0x0, 0x0, 0x0, 0xFFFF0001, 0x0⟩,
  ⟨0x1108C, 1, 1, 0x0, 0x0, 0x0, 0x1F, 0x0, 0x0⟩]

/-- The rows of the HOSTIF block (R548). -/
def hostifRows : List RegRow := [
  ⟨0x12000, 1, 1, 0x0, 0x0, 0x0, 0x0, 0x0, 0x0⟩,
  ⟨0x12004, 1, 1, 0x0, 0x0, 0x0, 0x1F, 0x0, 0x0⟩,
  ⟨0x12008, 1, 1, 0x0, 0x0, 0x0, 0x79, 0x0, 0x0⟩,
  ⟨0x1200C, 1, 1, 0x0, 0x0, 0x7F, 0x0, 0x0, 0x0⟩,
  ⟨0x12010, 1, 1, 0x0, 0x14, 0x3F, 0x0, 0x0, 0x0⟩,
  ⟨0x12014, 1, 1, 0x0, 0x200, 0x0, 0x0, 0x0, 0x0⟩,
  ⟨0x12018, 1, 1, 0x0, 0x0, 0x0, 0x0, 0x0, 0x0⟩,
  ⟨0x1201C, 1, 1, 0x0, 0x0, 0x0, 0x0, 0x0, 0x0⟩,
  ⟨0x12020, 1, 1, 0x0, 0x0, 0x0, 0x0, 0x3, 0x0⟩,
  ⟨0x12024, 1, 1, 0x0, 0x5DC0014, 0xFFF001F, 0x0, 0x0, 0x0⟩,
  ⟨0x12028, 1, 1, 0x0, 0x0, 0x0, 0x0, 0x0, 0x0⟩,
  ⟨0x1202C, 1, 1, 0x0, 0x0, 0x0, 0xF, 0x0, 0x0⟩,
  ⟨0x12030, 1, 1, 0x0, 0x0, 0x0, 0x0, 0x0, 0x0⟩,
  ⟨0x12034, 1, 1, 0x0, 0x0, 0x0, 0x0, 0x0, 0x0⟩,
  ⟨0x12040, 1, 1, 0x0, 0x0, 0x0, 0x0, 0x0, 0x0⟩,
  ⟨0x12044, 1, 1, 0x0, 0x0, 0x0, 0x0, 0x0, 0x0⟩,
  ⟨0x12048, 1, 1, 0x0, 0x0, 0xFFFFFFFF, 0x0, 0x0, 0x0⟩,
  ⟨0x1204C, 1, 1, 0x0, 0x0, 0xFFFFFFFF, 0x0, 0x0, 0x0⟩,
  ⟨0x12050, 1, 1, 0x0, 0x0, 0x0, 0x0, 0x7, 0x0⟩,
  ⟨0x12054, 1, 1, 0x0, 0x0, 0x0, 0x0, 0x0, 0x0⟩,
  ⟨0x12060, 1, 1, 0x0, 0x0, 0x0, 0x0, 0x0, 0x0⟩,
  ⟨0x12064, 1, 1, 0x0, 0x0, 0x0, 0x0, 0x0, 0x0⟩]

/-- The rows of the EGRESS block (R576). -/
def egressRows : List RegRow := [
  ⟨0x13000, 1, 1, 0x0, 0x7, 0x0, 0x0, 0x0, 0x0⟩,
  ⟨0x13004, 1, 1, 0x0, 0x7, 0x17, 0x0, 0x0, 0x0⟩,
  ⟨0x13008, 1, 1, 0x0, 0x0, 0x0, 0xF, 0x0, 0x0⟩,
  ⟨0x1300C, 1, 1, 0x0, 0x0, 0x0, 0x0, 0x0, 0x0⟩,
  ⟨0x13010, 1, 1, 0x0, 0x0, 0x0, 0x0, 0x0, 0x0⟩,
  ⟨0x13020, 1, 1, 0x0, 0x0, 0x0, 0x0, 0x0, 0x0⟩,
  ⟨0x13024, 1, 1, 0x0, 0x0, 0x0, 0x0, 0x0, 0x0⟩,
  ⟨0x13028, 1, 1, 0x0, 0x0, 0x0, 0x0, 0x0, 0x0⟩,
  ⟨0x1302C, 1, 1, 0x0, 0x0, 0x0, 0x0, 0x0, 0x0⟩,
  ⟨0x13030, 1, 1, 0x0, 0x1, 0x0, 0x0, 0x0, 0x0⟩,
  ⟨0x13040, 4, 1, 0x0, 0x0, 0x0, 0x0, 0x0, 0x0⟩]

/-- The rows of the OTP block (R605). -/
def otpRows : List RegRow := [
  ⟨0x14000, 1, 1, 0x0, 0x0, 0x0, 0x0, 0x0, 0x0⟩,
  ⟨0x14004, 1, 1, 0x0, 0x0, 0x0, 0x0, 0xFFFFFFC0, 0x0⟩,
  ⟨0x14008, 1, 1, 0x0, 0x0, 0xFF01FF, 0x0, 0x0, 0x0⟩,
  ⟨0x1400C, 1, 1, 0x0, 0x0, 0x0, 0x0, 0x0, 0x0⟩,
  ⟨0x14010, 1, 1, 0x0, 0x0, 0x0, 0x0, 0x0, 0x0⟩,
  ⟨0x14014, 1, 1, 0x0, 0x7FFF0000, 0x0, 0x0, 0x0, 0x0⟩,
  ⟨0x14018, 1, 1, 0x0, 0x0, 0xF, 0x0, 0x0, 0x0⟩,
  ⟨0x1401C, 1, 1, 0x0, 0x0, 0x0, 0xF, 0x0, 0x0⟩,
  ⟨0x14040, 16, 1, 0x0, 0x0, 0x0, 0x0, 0x0, 0x0⟩,
  ⟨0x14400, 256, 1, 0x0, 0x0, 0xFFFFFFFF, 0x0, 0x0, 0x0⟩,
  ⟨0x14800, 256, 1, 0x0, 0x0, 0x0, 0x0, 0x0, 0x0⟩]

/-- The rows of the FAULT block (R633). -/
def faultRows : List RegRow := [
  ⟨0x15000, 1, 1, 0x0, 0x0, 0x0, 0x3FFFF, 0x0, 0x0⟩,
  ⟨0x15004, 1, 1, 0x0, 0x0, 0x3FFFF, 0x0, 0x0, 0x0⟩,
  ⟨0x15008, 1, 1, 0x0, 0x0, 0x0, 0x0, 0x0, 0x0⟩,
  ⟨0x1500C, 1, 1, 0x0, 0x0, 0x3FF, 0x0, 0x0, 0x0⟩,
  ⟨0x15010, 1, 1, 0x0, 0x3F, 0x0, 0x0, 0x0, 0x0⟩,
  ⟨0x15014, 1, 1, 0x0, 0x0, 0x0, 0x0, 0x0, 0x0⟩,
  ⟨0x15018, 1, 1, 0x0, 0x0, 0x0, 0x0, 0xFFFF0317, 0x0⟩,
  ⟨0x1501C, 1, 1, 0x0, 0x0, 0x0, 0x0, 0x80000000, 0x0⟩,
  ⟨0x15020, 1, 1, 0x0, 0x0, 0x0, 0x0, 0x80000000, 0x0⟩,
  ⟨0x15024, 1, 1, 0x0, 0x0, 0x0, 0x0, 0x0, 0x0⟩,
  ⟨0x15028, 1, 1, 0x0, 0x0, 0x0, 0x0, 0x0, 0x0⟩,
  ⟨0x1502C, 1, 1, 0x0, 0x0, 0x0, 0x0, 0x0, 0x0⟩,
  ⟨0x15400, 256, 1, 0x0, 0x0, 0x0, 0x0, 0x0, 0x0⟩]

/-- The rows of the POWER block (R402, R634). -/
def powerRows : List RegRow := [
  ⟨0x16800, 1, 1, 0x0, 0x2, 0x7, 0x0, 0x0, 0x7⟩,
  ⟨0x16804, 1, 1, 0x0, 0x2, 0x0, 0x0, 0x0, 0x0⟩,
  ⟨0x16810, 8, 1, 0x0, 0x0, 0x1FFFF, 0x0, 0x0, 0x1FFFF⟩,
  ⟨0x16000, 1, 1, 0x0, 0x0, 0x0, 0x0, 0x0, 0x0⟩,
  ⟨0x16010, 1, 1, 0x0, 0x0, 0x0, 0x0, 0x0, 0x0⟩,
  ⟨0x16014, 1, 1, 0x0, 0x7D695F05, 0xFFFFFFFF, 0x0, 0x0, 0xFFFFFFFF⟩,
  ⟨0x16020, 8, 1, 0x0, 0x0, 0x1FFFF, 0x0, 0x0, 0x1FFFF⟩]

/-- The whole map of R657: 1 434 words. -/
def regRows : List RegRow :=
  deviceRows ++ tickRows ++ imageRows ++ pixelRows ++ terraceRows ++ surveyRows ++ frontRows ++ saddleRows ++ valeRows ++
  passRows ++ memoryRows ++ eccRows ++ loopRows ++ hostifRows ++ egressRows ++ otpRows ++ faultRows ++ powerRows

/-- The row covers the word at address `a`. -/
def RegRow.covers (r : RegRow) (a : Nat) : Bool :=
  decide (r.addr ≤ a) && a % 4 == 0 &&
  (if r.reps = 1 then decide (a < r.addr + 4 * r.cnt)
   else decide ((a - r.addr) % r.stride = 0) && decide ((a - r.addr) / r.stride < r.reps))

/-- The row of a defined register word; none at a reserved word (R658). -/
def rowOf (a : Nat) : Option RegRow := regRows.find? (·.covers a)

end Sys2Proof.Machine
end

