-- ==== Sys2Proof/Machine/RegNames.lean ====
section
/-!
DEFINITION. Machine/RegNames.lean: the register and field names of the register tables (R10: REGISTER.FIELD).
`A.X` is register X's address, `F.X.Y` its field Y; an array, a Vale's block and a Mover's block are named by their
first element (`Fld.el`, `Fld.vale`, `Fld.mov`).
-/
namespace Sys2Proof.Machine

/-! ### DEVICE -/

abbrev A.DEVICE_ID : Nat := 0x0
abbrev F.DEVICE_ID.ID : Fld := ⟨0x0, 0, 32⟩
abbrev A.DEVICE_REV : Nat := 0x4
abbrev F.DEVICE_REV.MOSAIC : Fld := ⟨0x4, 8, 4⟩
abbrev F.DEVICE_REV.STEP_MAJOR : Fld := ⟨0x4, 4, 4⟩
abbrev F.DEVICE_REV.STEP_MINOR : Fld := ⟨0x4, 0, 4⟩
abbrev A.DEV_STATE : Nat := 0x8
abbrev F.DEV_STATE.LAST_CMD : Fld := ⟨0x8, 20, 4⟩
abbrev F.DEV_STATE.HOLD_REASON : Fld := ⟨0x8, 16, 4⟩
abbrev F.DEV_STATE.DEGRADE : Fld := ⟨0x8, 8, 3⟩
abbrev F.DEV_STATE.IMAGE_OK : Fld := ⟨0x8, 7, 1⟩
abbrev F.DEV_STATE.STOPPING : Fld := ⟨0x8, 6, 1⟩
abbrev F.DEV_STATE.STATE : Fld := ⟨0x8, 0, 4⟩
abbrev A.DEV_CTRL : Nat := 0xC
abbrev F.DEV_CTRL.KEY : Fld := ⟨0xC, 16, 16⟩
abbrev F.DEV_CTRL.SOFT_RESET : Fld := ⟨0xC, 3, 1⟩
abbrev F.DEV_CTRL.RELOAD : Fld := ⟨0xC, 2, 1⟩
abbrev F.DEV_CTRL.STOP : Fld := ⟨0xC, 1, 1⟩
abbrev F.DEV_CTRL.GO : Fld := ⟨0xC, 0, 1⟩
abbrev A.RESET_CAUSE : Nat := 0x10
abbrev F.RESET_CAUSE.RAIL : Fld := ⟨0x10, 4, 5⟩
abbrev F.RESET_CAUSE.FAULT_STOP : Fld := ⟨0x10, 3, 1⟩
abbrev F.RESET_CAUSE.SOFT : Fld := ⟨0x10, 2, 1⟩
abbrev F.RESET_CAUSE.PIN : Fld := ⟨0x10, 1, 1⟩
abbrev F.RESET_CAUSE.POWER_ON : Fld := ⟨0x10, 0, 1⟩
abbrev A.LIFECYCLE : Nat := 0x14
abbrev F.LIFECYCLE.LC_RESULT : Fld := ⟨0x14, 12, 4⟩
abbrev F.LIFECYCLE.LC_BUSY : Fld := ⟨0x14, 9, 1⟩
abbrev F.LIFECYCLE.MINORITY : Fld := ⟨0x14, 8, 1⟩
abbrev F.LIFECYCLE.PENDING : Fld := ⟨0x14, 4, 3⟩
abbrev F.LIFECYCLE.STATE : Fld := ⟨0x14, 0, 3⟩
abbrev A.LC_CTRL : Nat := 0x18
abbrev F.LC_CTRL.KEY : Fld := ⟨0x18, 16, 16⟩
abbrev F.LC_CTRL.TARGET : Fld := ⟨0x18, 0, 3⟩
abbrev A.STRAPS : Nat := 0x1C
abbrev F.STRAPS.TMODE : Fld := ⟨0x1C, 2, 1⟩
abbrev F.STRAPS.BOOT_SRC : Fld := ⟨0x1C, 1, 1⟩
abbrev F.STRAPS.ADDR_SEL : Fld := ⟨0x1C, 0, 1⟩
abbrev A.BIST_STATUS : Nat := 0x20
abbrev F.BIST_STATUS.PLAIN_LOST : Fld := ⟨0x20, 8, 10⟩
abbrev F.BIST_STATUS.BASIN_FAIL : Fld := ⟨0x20, 7, 1⟩
abbrev F.BIST_STATUS.SADDLE_FAIL : Fld := ⟨0x20, 6, 1⟩
abbrev F.BIST_STATUS.VALE_FAIL : Fld := ⟨0x20, 0, 6⟩
abbrev A.BIST_TERRACE : Nat := 0x24
abbrev F.BIST_TERRACE.HALF_GROUPS : Fld := ⟨0x24, 12, 10⟩
abbrev F.BIST_TERRACE.RETIRED : Fld := ⟨0x24, 0, 12⟩
abbrev A.STARTUP_TIME : Nat := 0x28
abbrev F.STARTUP_TIME.TIME_US : Fld := ⟨0x28, 0, 32⟩
abbrev A.DEV_SERIAL_LO : Nat := 0x30
abbrev F.DEV_SERIAL_LO.SERIAL : Fld := ⟨0x30, 0, 32⟩
abbrev A.DEV_SERIAL_HI : Nat := 0x34
abbrev F.DEV_SERIAL_HI.SERIAL : Fld := ⟨0x34, 0, 32⟩
abbrev A.LC_CHAL_LO : Nat := 0x38
abbrev F.LC_CHAL_LO.CHAL : Fld := ⟨0x38, 0, 32⟩
abbrev A.LC_CHAL_HI : Nat := 0x3C
abbrev F.LC_CHAL_HI.CHAL : Fld := ⟨0x3C, 0, 32⟩
abbrev A.LC_AUTH : Nat := 0x40
abbrev F.LC_AUTH.AUTH : Fld := ⟨0x40, 0, 32⟩

/-! ### TICK -/

abbrev A.TICK_STATUS : Nat := 0x1000
abbrev F.TICK_STATUS.FALLBACK_VALE : Fld := ⟨0x1000, 20, 3⟩
abbrev F.TICK_STATUS.FALLBACK : Fld := ⟨0x1000, 19, 1⟩
abbrev F.TICK_STATUS.RUNNING : Fld := ⟨0x1000, 18, 1⟩
abbrev F.TICK_STATUS.SLAVE_STATE : Fld := ⟨0x1000, 16, 2⟩
abbrev F.TICK_STATUS.SLAVED : Fld := ⟨0x1000, 15, 1⟩
abbrev F.TICK_STATUS.RATE : Fld := ⟨0x1000, 12, 3⟩
abbrev F.TICK_STATUS.SLOT : Fld := ⟨0x1000, 0, 12⟩
abbrev A.TICK_FRAME : Nat := 0x1004
abbrev F.TICK_FRAME.FRAME : Fld := ⟨0x1004, 0, 32⟩
abbrev A.TICK_CTRL : Nat := 0x1008
abbrev F.TICK_CTRL.HOLDOVER_MAX : Fld := ⟨0x1008, 20, 8⟩
abbrev F.TICK_CTRL.FSO_WIDTH : Fld := ⟨0x1008, 12, 8⟩
abbrev F.TICK_CTRL.FSO_OFFSET : Fld := ⟨0x1008, 0, 12⟩
abbrev A.FSYNC_CFG : Nat := 0x100C
abbrev F.FSYNC_CFG.FSYNC_WAIT : Fld := ⟨0x100C, 0, 8⟩
abbrev A.TICK_PERIOD : Nat := 0x1010
abbrev F.TICK_PERIOD.PERIOD : Fld := ⟨0x1010, 0, 24⟩
abbrev A.FSYNC_PHASE : Nat := 0x1014
abbrev F.FSYNC_PHASE.PHASE : Fld := ⟨0x1014, 0, 32⟩
abbrev A.SLAVE_EVENTS : Nat := 0x1018
abbrev F.SLAVE_EVENTS.MISS_COUNT : Fld := ⟨0x1018, 16, 8⟩
abbrev F.SLAVE_EVENTS.SLAVE_LOST : Fld := ⟨0x1018, 4, 1⟩
abbrev F.SLAVE_EVENTS.LOCK_LOST : Fld := ⟨0x1018, 3, 1⟩
abbrev F.SLAVE_EVENTS.EXTRA_EDGE : Fld := ⟨0x1018, 2, 1⟩
abbrev F.SLAVE_EVENTS.OUT_OF_WINDOW : Fld := ⟨0x1018, 1, 1⟩
abbrev F.SLAVE_EVENTS.MISSED : Fld := ⟨0x1018, 0, 1⟩
abbrev A.CLK_STATUS : Nat := 0x101C
abbrev F.CLK_STATUS.PLL_C_LOCK : Fld := ⟨0x101C, 12, 1⟩
abbrev F.CLK_STATUS.PLL_M_LOCK : Fld := ⟨0x101C, 11, 1⟩
abbrev F.CLK_STATUS.PLL_F_LOCK : Fld := ⟨0x101C, 10, 1⟩
abbrev F.CLK_STATUS.PLL_V_LOCK : Fld := ⟨0x101C, 4, 6⟩
abbrev F.CLK_STATUS.PLL_S_LOCK : Fld := ⟨0x101C, 3, 1⟩
abbrev F.CLK_STATUS.PLL_T_LOCK : Fld := ⟨0x101C, 2, 1⟩
abbrev F.CLK_STATUS.XCLK_ID : Fld := ⟨0x101C, 0, 2⟩
abbrev A.SCHED_STATUS : Nat := 0x1020
abbrev F.SCHED_STATUS.ENTRIES : Fld := ⟨0x1020, 16, 13⟩
abbrev F.SCHED_STATUS.SPILL_USED : Fld := ⟨0x1020, 0, 13⟩
abbrev A.OVERRUN_LOG : Nat := 0x1024
abbrev F.OVERRUN_LOG.CLR : Fld := ⟨0x1024, 31, 1⟩
abbrev F.OVERRUN_LOG.COUNT : Fld := ⟨0x1024, 16, 8⟩
abbrev F.OVERRUN_LOG.ENTRY : Fld := ⟨0x1024, 0, 16⟩

/-! ### IMAGE -/

abbrev A.IMG_STATUS : Nat := 0x2000
abbrev F.IMG_STATUS.DETAIL : Fld := ⟨0x2000, 16, 16⟩
abbrev F.IMG_STATUS.ERROR : Fld := ⟨0x2000, 8, 8⟩
abbrev F.IMG_STATUS.SLOT_B : Fld := ⟨0x2000, 7, 1⟩
abbrev F.IMG_STATUS.HOT_READY : Fld := ⟨0x2000, 6, 1⟩
abbrev F.IMG_STATUS.HOT : Fld := ⟨0x2000, 5, 1⟩
abbrev F.IMG_STATUS.BUSY : Fld := ⟨0x2000, 4, 1⟩
abbrev F.IMG_STATUS.PHASE : Fld := ⟨0x2000, 0, 4⟩
abbrev A.IMG_CTRL : Nat := 0x2004
abbrev F.IMG_CTRL.SWAP_ARM : Fld := ⟨0x2004, 2, 1⟩
abbrev F.IMG_CTRL.ABORT : Fld := ⟨0x2004, 1, 1⟩
abbrev F.IMG_CTRL.START : Fld := ⟨0x2004, 0, 1⟩
abbrev A.IMG_ID : Nat := 0x2008
abbrev F.IMG_ID.IMAGE_ID : Fld := ⟨0x2008, 0, 32⟩
abbrev A.IMG_HOT_ID : Nat := 0x200C
abbrev F.IMG_HOT_ID.IMAGE_ID : Fld := ⟨0x200C, 0, 32⟩
abbrev A.IMG_PUSH_COUNT : Nat := 0x2010
abbrev F.IMG_PUSH_COUNT.BYTES : Fld := ⟨0x2010, 0, 32⟩
abbrev A.IMG_TIMEOUT : Nat := 0x2014
abbrev F.IMG_TIMEOUT.MS : Fld := ⟨0x2014, 0, 16⟩
abbrev A.IMG_FLASH : Nat := 0x2018
abbrev F.IMG_FLASH.B_TRIED : Fld := ⟨0x2018, 16, 1⟩
abbrev F.IMG_FLASH.ERR_B : Fld := ⟨0x2018, 8, 8⟩
abbrev F.IMG_FLASH.ERR_A : Fld := ⟨0x2018, 0, 8⟩
abbrev A.IMG_ROLLBACK : Nat := 0x201C
abbrev F.IMG_ROLLBACK.IMAGE : Fld := ⟨0x201C, 8, 7⟩
abbrev F.IMG_ROLLBACK.COUNTER : Fld := ⟨0x201C, 0, 7⟩
abbrev A.IMG_LOAD_TIME : Nat := 0x2020
abbrev F.IMG_LOAD_TIME.TIME_US : Fld := ⟨0x2020, 0, 32⟩

/-! ### PIXEL -/

abbrev A.PIX_STATUS : Nat := 0x3000
abbrev F.PIX_STATUS.DARK_STALE : Fld := ⟨0x3000, 5, 1⟩
abbrev F.PIX_STATUS.EXPOSED : Fld := ⟨0x3000, 4, 1⟩
abbrev F.PIX_STATUS.TRIG_MODE : Fld := ⟨0x3000, 2, 2⟩
abbrev F.PIX_STATUS.EXP_OWNER : Fld := ⟨0x3000, 1, 1⟩
abbrev F.PIX_STATUS.ACTIVE : Fld := ⟨0x3000, 0, 1⟩
abbrev A.PIX_EVENTS : Nat := 0x3004
abbrev F.PIX_EVENTS.EXP_OWNER : Fld := ⟨0x3004, 4, 1⟩
abbrev F.PIX_EVENTS.STROBE_NONE : Fld := ⟨0x3004, 3, 1⟩
abbrev F.PIX_EVENTS.STROBE_CUT : Fld := ⟨0x3004, 2, 1⟩
abbrev F.PIX_EVENTS.EXP_CLAMP_S : Fld := ⟨0x3004, 1, 1⟩
abbrev F.PIX_EVENTS.EXP_CLAMP_L : Fld := ⟨0x3004, 0, 1⟩
abbrev A.PIX_CTRL : Nat := 0x3008
abbrev F.PIX_CTRL.DARK_COMP : Fld := ⟨0x3008, 7, 1⟩
abbrev F.PIX_CTRL.STROBE_EXP : Fld := ⟨0x3008, 6, 1⟩
abbrev F.PIX_CTRL.STROBE_MODE : Fld := ⟨0x3008, 4, 2⟩
abbrev F.PIX_CTRL.TRIG_MODE : Fld := ⟨0x3008, 2, 2⟩
abbrev F.PIX_CTRL.EXP_OWNER : Fld := ⟨0x3008, 0, 1⟩
abbrev A.EXP_LONG : Nat := 0x300C
abbrev F.EXP_LONG.CYCLES : Fld := ⟨0x300C, 0, 24⟩
abbrev A.EXP_SHORT : Nat := 0x3010
abbrev F.EXP_SHORT.CYCLES : Fld := ⟨0x3010, 0, 24⟩
abbrev A.EXP_GAIN : Nat := 0x3014
abbrev F.EXP_GAIN.S_GAIN : Fld := ⟨0x3014, 1, 1⟩
abbrev F.EXP_GAIN.L_GAIN : Fld := ⟨0x3014, 0, 1⟩
abbrev A.EXP_FORCE_L : Nat := 0x3018
abbrev F.EXP_FORCE_L.GAIN : Fld := ⟨0x3018, 24, 1⟩
abbrev F.EXP_FORCE_L.CYCLES : Fld := ⟨0x3018, 0, 24⟩
abbrev A.EXP_FORCE_S : Nat := 0x301C
abbrev F.EXP_FORCE_S.GAIN : Fld := ⟨0x301C, 24, 1⟩
abbrev F.EXP_FORCE_S.CYCLES : Fld := ⟨0x301C, 0, 24⟩
abbrev A.EXP_MAX_L : Nat := 0x3020
abbrev F.EXP_MAX_L.CYCLES : Fld := ⟨0x3020, 0, 24⟩
abbrev A.EXP_MAX_S : Nat := 0x3024
abbrev F.EXP_MAX_S.CYCLES : Fld := ⟨0x3024, 0, 24⟩
abbrev A.READOUT_INFO : Nat := 0x3028
abbrev F.READOUT_INFO.MODE : Fld := ⟨0x3028, 31, 1⟩
abbrev F.READOUT_INFO.SAMPLE_SET : Fld := ⟨0x3028, 28, 3⟩
abbrev F.READOUT_INFO.READ_START : Fld := ⟨0x3028, 16, 12⟩
abbrev F.READOUT_INFO.ROW_TIME : Fld := ⟨0x3028, 0, 16⟩
abbrev A.READOUT_LEAD : Nat := 0x302C
abbrev F.READOUT_LEAD.SHORT_LEAD : Fld := ⟨0x302C, 0, 13⟩
abbrev A.STROBE_ROWS : Nat := 0x3030
abbrev F.STROBE_ROWS.LAST : Fld := ⟨0x3030, 16, 13⟩
abbrev F.STROBE_ROWS.FIRST : Fld := ⟨0x3030, 0, 13⟩
abbrev A.STROBE_MAX : Nat := 0x3034
abbrev F.STROBE_MAX.US : Fld := ⟨0x3034, 0, 16⟩
abbrev A.TRIG_CFG : Nat := 0x3038
abbrev F.TRIG_CFG.LATCH : Fld := ⟨0x3038, 0, 12⟩
abbrev A.TRIG_COUNT : Nat := 0x303C
abbrev F.TRIG_COUNT.COUNT : Fld := ⟨0x303C, 0, 16⟩
abbrev A.TRIG_STAMP_LO : Nat := 0x3040
abbrev F.TRIG_STAMP_LO.NS : Fld := ⟨0x3040, 0, 32⟩
abbrev A.TRIG_STAMP_HI : Nat := 0x3044
abbrev F.TRIG_STAMP_HI.NS : Fld := ⟨0x3044, 0, 32⟩
abbrev A.DARK_CFG : Nat := 0x3048
abbrev F.DARK_CFG.DARK_OB : Fld := ⟨0x3048, 16, 16⟩
abbrev F.DARK_CFG.DBL : Fld := ⟨0x3048, 0, 8⟩
abbrev A.PIX_TEMP : Nat := 0x304C
abbrev F.PIX_TEMP.T1 : Fld := ⟨0x304C, 16, 16⟩
abbrev F.PIX_TEMP.T0 : Fld := ⟨0x304C, 0, 16⟩
abbrev A.DARK_ZONE : Nat := 0x3080
abbrev F.DARK_ZONE.RATE : Fld := ⟨0x3080, 0, 16⟩

/-! ### TERRACE -/

abbrev A.TER_STATUS : Nat := 0x4000
abbrev F.TER_STATUS.CONVERGED : Fld := ⟨0x4000, 31, 1⟩
abbrev F.TER_STATUS.FROZEN : Fld := ⟨0x4000, 30, 1⟩
abbrev F.TER_STATUS.HALF_GROUPS : Fld := ⟨0x4000, 16, 10⟩
abbrev F.TER_STATUS.RETIRED : Fld := ⟨0x4000, 0, 12⟩
abbrev A.TER_GROUPS : Nat := 0x4004
abbrev F.TER_GROUPS.NOSPARE_GROUPS : Fld := ⟨0x4004, 16, 10⟩
abbrev F.TER_GROUPS.LOST_GROUPS : Fld := ⟨0x4004, 0, 10⟩
abbrev A.TER_CTRL : Nat := 0x4008
abbrev F.TER_CTRL.COL_AVG : Fld := ⟨0x4008, 4, 4⟩
abbrev F.TER_CTRL.CAL_FREEZE : Fld := ⟨0x4008, 0, 1⟩
abbrev A.TER_EVENTS : Nat := 0x400C
abbrev F.TER_EVENTS.GROUP_LOST : Fld := ⟨0x400C, 2, 1⟩
abbrev F.TER_EVENTS.GROUP_HALF : Fld := ⟨0x400C, 1, 1⟩
abbrev F.TER_EVENTS.SLICE_RETIRED : Fld := ⟨0x400C, 0, 1⟩
abbrev A.TER_ROT : Nat := 0x4010
abbrev F.TER_ROT.BOUNDARIES : Fld := ⟨0x4010, 8, 24⟩
abbrev F.TER_ROT.POSITION : Fld := ⟨0x4010, 0, 8⟩
abbrev A.TER_SEL : Nat := 0x4014
abbrev F.TER_SEL.SLICE : Fld := ⟨0x4014, 16, 3⟩
abbrev F.TER_SEL.GROUP : Fld := ⟨0x4014, 0, 9⟩
abbrev A.TER_GROUP : Nat := 0x4018
abbrev F.TER_GROUP.MODE : Fld := ⟨0x4018, 12, 3⟩
abbrev F.TER_GROUP.CONVERGED : Fld := ⟨0x4018, 11, 1⟩
abbrev F.TER_GROUP.SPARE : Fld := ⟨0x4018, 8, 3⟩
abbrev F.TER_GROUP.GOOD : Fld := ⟨0x4018, 0, 5⟩
abbrev A.TER_SLICE_OFS : Nat := 0x401C
abbrev F.TER_SLICE_OFS.OFFSET : Fld := ⟨0x401C, 0, 24⟩
abbrev A.TER_SLICE_GAIN : Nat := 0x4020
abbrev F.TER_SLICE_GAIN.GAIN : Fld := ⟨0x4020, 0, 16⟩
abbrev A.TER_SLICE_SKEW : Nat := 0x4024
abbrev F.TER_SLICE_SKEW.TRIM : Fld := ⟨0x4024, 0, 8⟩
abbrev A.TER_SLICE_RESID : Nat := 0x4028
abbrev F.TER_SLICE_RESID.RMS : Fld := ⟨0x4028, 0, 16⟩
abbrev A.TER_SLICE_STATE : Nat := 0x402C
abbrev F.TER_SLICE_STATE.RETIRED : Fld := ⟨0x402C, 4, 1⟩
abbrev F.TER_SLICE_STATE.CAUSE : Fld := ⟨0x402C, 0, 4⟩
abbrev A.TER_RETIRE_LOG : Nat := 0x4030
abbrev F.TER_RETIRE_LOG.GROUP : Fld := ⟨0x4030, 23, 9⟩
abbrev F.TER_RETIRE_LOG.SLICE : Fld := ⟨0x4030, 20, 3⟩
abbrev F.TER_RETIRE_LOG.CAUSE : Fld := ⟨0x4030, 16, 4⟩
abbrev F.TER_RETIRE_LOG.ROW_TIME : Fld := ⟨0x4030, 0, 14⟩
abbrev A.TER_RETIRE_FRAME : Nat := 0x4034
abbrev F.TER_RETIRE_FRAME.FRAME : Fld := ⟨0x4034, 0, 32⟩
abbrev A.TER_MODE_MAP : Nat := 0x4100
abbrev F.TER_MODE_MAP.CONV_0 : Fld := ⟨0x4100, 3, 1⟩
abbrev F.TER_MODE_MAP.CONV_1 : Fld := ⟨0x4100, 7, 1⟩
abbrev F.TER_MODE_MAP.CONV_2 : Fld := ⟨0x4100, 11, 1⟩
abbrev F.TER_MODE_MAP.CONV_3 : Fld := ⟨0x4100, 15, 1⟩
abbrev F.TER_MODE_MAP.CONV_4 : Fld := ⟨0x4100, 19, 1⟩
abbrev F.TER_MODE_MAP.CONV_5 : Fld := ⟨0x4100, 23, 1⟩
abbrev F.TER_MODE_MAP.CONV_6 : Fld := ⟨0x4100, 27, 1⟩
abbrev F.TER_MODE_MAP.CONV_7 : Fld := ⟨0x4100, 31, 1⟩
abbrev F.TER_MODE_MAP.MODE_0 : Fld := ⟨0x4100, 0, 3⟩
abbrev F.TER_MODE_MAP.MODE_1 : Fld := ⟨0x4100, 4, 3⟩
abbrev F.TER_MODE_MAP.MODE_2 : Fld := ⟨0x4100, 8, 3⟩
abbrev F.TER_MODE_MAP.MODE_3 : Fld := ⟨0x4100, 12, 3⟩
abbrev F.TER_MODE_MAP.MODE_4 : Fld := ⟨0x4100, 16, 3⟩
abbrev F.TER_MODE_MAP.MODE_5 : Fld := ⟨0x4100, 20, 3⟩
abbrev F.TER_MODE_MAP.MODE_6 : Fld := ⟨0x4100, 24, 3⟩
abbrev F.TER_MODE_MAP.MODE_7 : Fld := ⟨0x4100, 28, 3⟩

/-! ### SURVEY -/

abbrev A.SRV_STATUS : Nat := 0x5000
abbrev F.SRV_STATUS.SEQ : Fld := ⟨0x5000, 24, 8⟩
abbrev F.SRV_STATUS.DISABLED : Fld := ⟨0x5000, 15, 1⟩
abbrev F.SRV_STATUS.SLICE_OK : Fld := ⟨0x5000, 13, 2⟩
abbrev F.SRV_STATUS.BUSY : Fld := ⟨0x5000, 12, 1⟩
abbrev F.SRV_STATUS.LEVEL : Fld := ⟨0x5000, 0, 7⟩
abbrev A.SRV_CFG : Nat := 0x5004
abbrev F.SRV_CFG.WATERMARK : Fld := ⟨0x5004, 8, 7⟩
abbrev F.SRV_CFG.ALIGN : Fld := ⟨0x5004, 4, 1⟩
abbrev F.SRV_CFG.TRIG_SRC : Fld := ⟨0x5004, 0, 2⟩
abbrev A.SRV_MASK : Nat := 0x5008
abbrev F.SRV_MASK.MASK : Fld := ⟨0x5008, 0, 24⟩
abbrev A.SRV_AIN_CFG : Nat := 0x500C
abbrev F.SRV_AIN_CFG.DIFF : Fld := ⟨0x500C, 0, 3⟩
abbrev A.SRV_TRIG : Nat := 0x5010
abbrev F.SRV_TRIG.CLR_COUNTS : Fld := ⟨0x5010, 3, 1⟩
abbrev F.SRV_TRIG.FLUSH : Fld := ⟨0x5010, 1, 1⟩
abbrev F.SRV_TRIG.GO : Fld := ⟨0x5010, 0, 1⟩
abbrev A.SRV_SLOT : Nat := 0x5014
abbrev F.SRV_SLOT.STEP : Fld := ⟨0x5014, 16, 12⟩
abbrev F.SRV_SLOT.START : Fld := ⟨0x5014, 0, 12⟩
abbrev A.SRV_IRQ_STATUS : Nat := 0x5018
abbrev F.SRV_IRQ_STATUS.REF_CHECK : Fld := ⟨0x5018, 5, 1⟩
abbrev F.SRV_IRQ_STATUS.SKIPPED : Fld := ⟨0x5018, 4, 1⟩
abbrev F.SRV_IRQ_STATUS.WINDOW : Fld := ⟨0x5018, 3, 1⟩
abbrev F.SRV_IRQ_STATUS.OVERFLOW : Fld := ⟨0x5018, 2, 1⟩
abbrev F.SRV_IRQ_STATUS.FIFO_WM : Fld := ⟨0x5018, 1, 1⟩
abbrev F.SRV_IRQ_STATUS.SCAN_DONE : Fld := ⟨0x5018, 0, 1⟩
abbrev A.SRV_IRQ_EN : Nat := 0x501C
abbrev F.SRV_IRQ_EN.REF_CHECK : Fld := ⟨0x501C, 5, 1⟩
abbrev F.SRV_IRQ_EN.SKIPPED : Fld := ⟨0x501C, 4, 1⟩
abbrev F.SRV_IRQ_EN.WINDOW : Fld := ⟨0x501C, 3, 1⟩
abbrev F.SRV_IRQ_EN.OVERFLOW : Fld := ⟨0x501C, 2, 1⟩
abbrev F.SRV_IRQ_EN.FIFO_WM : Fld := ⟨0x501C, 1, 1⟩
abbrev F.SRV_IRQ_EN.SCAN_DONE : Fld := ⟨0x501C, 0, 1⟩
abbrev A.SRV_FIFO_TAG : Nat := 0x5020
abbrev F.SRV_FIFO_TAG.SEQ : Fld := ⟨0x5020, 24, 8⟩
abbrev F.SRV_FIFO_TAG.LAST : Fld := ⟨0x5020, 11, 1⟩
abbrev F.SRV_FIFO_TAG.WIN : Fld := ⟨0x5020, 10, 1⟩
abbrev F.SRV_FIFO_TAG.CLAMP : Fld := ⟨0x5020, 9, 1⟩
abbrev F.SRV_FIFO_TAG.SIGNED : Fld := ⟨0x5020, 8, 1⟩
abbrev F.SRV_FIFO_TAG.CHANNEL : Fld := ⟨0x5020, 0, 5⟩
abbrev A.SRV_FIFO_DATA : Nat := 0x5024
abbrev F.SRV_FIFO_DATA.DATA : Fld := ⟨0x5024, 0, 32⟩
abbrev A.SRV_COUNTS : Nat := 0x5028
abbrev F.SRV_COUNTS.SKIPPED : Fld := ⟨0x5028, 16, 16⟩
abbrev F.SRV_COUNTS.DROPPED : Fld := ⟨0x5028, 0, 16⟩
abbrev A.SRV_SCAN_INFO : Nat := 0x502C
abbrev F.SRV_SCAN_INFO.N : Fld := ⟨0x502C, 16, 5⟩
abbrev F.SRV_SCAN_INFO.SRC : Fld := ⟨0x502C, 8, 3⟩
abbrev F.SRV_SCAN_INFO.SEQ : Fld := ⟨0x502C, 0, 8⟩
abbrev A.SRV_STAMP_LO : Nat := 0x5030
abbrev F.SRV_STAMP_LO.NS : Fld := ⟨0x5030, 0, 32⟩
abbrev A.SRV_STAMP_HI : Nat := 0x5034
abbrev F.SRV_STAMP_HI.NS : Fld := ⟨0x5034, 0, 32⟩
abbrev A.SRV_WIN_EN : Nat := 0x5038
abbrev F.SRV_WIN_EN.CH : Fld := ⟨0x5038, 0, 24⟩
abbrev A.SRV_WIN_EVENTS : Nat := 0x503C
abbrev F.SRV_WIN_EVENTS.CH : Fld := ⟨0x503C, 0, 24⟩
abbrev A.SRV_LAST : Nat := 0x5080
abbrev F.SRV_LAST.DATA : Fld := ⟨0x5080, 0, 32⟩
abbrev A.SRV_WIN : Nat := 0x5100
abbrev F.SRV_WIN.HI : Fld := ⟨0x5100, 16, 16⟩
abbrev F.SRV_WIN.LO : Fld := ⟨0x5100, 0, 16⟩

/-! ### FRONT -/

abbrev A.FR_STATUS : Nat := 0x6000
abbrev F.FR_STATUS.ROW : Fld := ⟨0x6000, 16, 13⟩
abbrev F.FR_STATUS.STATS_BUF : Fld := ⟨0x6000, 3, 1⟩
abbrev F.FR_STATUS.BL_VALID : Fld := ⟨0x6000, 2, 1⟩
abbrev F.FR_STATUS.ACTIVE : Fld := ⟨0x6000, 0, 1⟩
abbrev A.FR_CTRL : Nat := 0x6004
abbrev F.FR_CTRL.STATS_EN : Fld := ⟨0x6004, 4, 1⟩
abbrev F.FR_CTRL.SHADING_EN : Fld := ⟨0x6004, 3, 1⟩
abbrev F.FR_CTRL.MOTION_EN : Fld := ⟨0x6004, 2, 1⟩
abbrev F.FR_CTRL.DYN_EN : Fld := ⟨0x6004, 1, 1⟩
abbrev F.FR_CTRL.ROW_BL_EN : Fld := ⟨0x6004, 0, 1⟩
abbrev A.FR_EVENTS : Nat := 0x6008
abbrev F.FR_EVENTS.ROW_BL_ABSENT : Fld := ⟨0x6008, 2, 1⟩
abbrev F.FR_EVENTS.DEFECT_UNRESOLVED : Fld := ⟨0x6008, 1, 1⟩
abbrev F.FR_EVENTS.BL_RANGE : Fld := ⟨0x6008, 0, 1⟩
abbrev A.FR_FRAME : Nat := 0x600C
abbrev F.FR_FRAME.FRAME : Fld := ⟨0x600C, 0, 32⟩
abbrev A.FR_BLACK : Nat := 0x6010
abbrev F.FR_BLACK.BLACK : Fld := ⟨0x6010, 0, 24⟩
abbrev A.FR_BL_WIN : Nat := 0x601C
abbrev F.FR_BL_WIN.HI : Fld := ⟨0x601C, 16, 16⟩
abbrev F.FR_BL_WIN.LO : Fld := ⟨0x601C, 0, 16⟩
abbrev A.FR_HCG_KNEE : Nat := 0x6020
abbrev F.FR_HCG_KNEE.BAND : Fld := ⟨0x6020, 16, 16⟩
abbrev F.FR_HCG_KNEE.KNEE : Fld := ⟨0x6020, 0, 16⟩
abbrev A.FR_EXP_KNEE : Nat := 0x6024
abbrev F.FR_EXP_KNEE.BAND : Fld := ⟨0x6024, 16, 16⟩
abbrev F.FR_EXP_KNEE.KNEE : Fld := ⟨0x6024, 0, 16⟩
abbrev A.FR_SAT : Nat := 0x6028
abbrev F.FR_SAT.SAT : Fld := ⟨0x6028, 0, 16⟩
abbrev A.FR_NOISE : Nat := 0x602C
abbrev F.FR_NOISE.NM_READ : Fld := ⟨0x602C, 0, 16⟩
abbrev A.FR_MOTION : Nat := 0x6030
abbrev F.FR_MOTION.K1 : Fld := ⟨0x6030, 8, 8⟩
abbrev F.FR_MOTION.K0 : Fld := ⟨0x6030, 0, 8⟩
abbrev A.FR_DEFECT : Nat := 0x6034
abbrev F.FR_DEFECT.DYN_T : Fld := ⟨0x6034, 0, 8⟩
abbrev A.FR_EDGE : Nat := 0x6038
abbrev F.FR_EDGE.EDGE_T : Fld := ⟨0x6038, 0, 8⟩
abbrev A.FR_CG : Nat := 0x603C
abbrev F.FR_CG.HCG : Fld := ⟨0x603C, 16, 16⟩
abbrev F.FR_CG.LCG : Fld := ⟨0x603C, 0, 16⟩
abbrev A.FR_NORM : Nat := 0x6040
abbrev F.FR_NORM.NORM : Fld := ⟨0x6040, 0, 24⟩
abbrev A.FR_WB : Nat := 0x6050
abbrev F.FR_WB.VALUE : Fld := ⟨0x6050, 0, 16⟩
abbrev A.FR_IRK : Nat := 0x6060
abbrev F.FR_IRK.VALUE : Fld := ⟨0x6060, 0, 16⟩
abbrev A.FR_IRW : Nat := 0x6070
abbrev F.FR_IRW.VALUE : Fld := ⟨0x6070, 0, 16⟩
abbrev A.FR_CNT_STATIC : Nat := 0x6080
abbrev F.FR_CNT_STATIC.COUNT : Fld := ⟨0x6080, 0, 32⟩
abbrev A.FR_CNT_DYN : Nat := 0x6084
abbrev F.FR_CNT_DYN.COUNT : Fld := ⟨0x6084, 0, 32⟩
abbrev A.FR_CNT_MISSING : Nat := 0x6088
abbrev F.FR_CNT_MISSING.COUNT : Fld := ⟨0x6088, 0, 32⟩
abbrev A.FR_CNT_MOTION : Nat := 0x608C
abbrev F.FR_CNT_MOTION.COUNT : Fld := ⟨0x608C, 0, 32⟩
abbrev A.FR_CNT_SAT : Nat := 0x6090
abbrev F.FR_CNT_SAT.COUNT : Fld := ⟨0x6090, 0, 32⟩

/-! ### SADDLE -/

abbrev A.SAD_STATUS : Nat := 0x7000
abbrev F.SAD_STATUS.ENTRY : Fld := ⟨0x7000, 16, 16⟩
abbrev F.SAD_STATUS.CONTROL : Fld := ⟨0x7000, 1, 1⟩
abbrev F.SAD_STATUS.BUSY : Fld := ⟨0x7000, 0, 1⟩
abbrev A.SAD_EVENTS : Nat := 0x7004
abbrev F.SAD_EVENTS.CLR_PEAK : Fld := ⟨0x7004, 31, 1⟩
abbrev F.SAD_EVENTS.NAN_IN : Fld := ⟨0x7004, 1, 1⟩
abbrev F.SAD_EVENTS.SATURATE : Fld := ⟨0x7004, 0, 1⟩
abbrev A.SAD_LAST_UNIT : Nat := 0x7008
abbrev F.SAD_LAST_UNIT.ENTRY : Fld := ⟨0x7008, 16, 16⟩
abbrev F.SAD_LAST_UNIT.UNIT_ID : Fld := ⟨0x7008, 0, 16⟩
abbrev A.SAD_CYCLES : Nat := 0x700C
abbrev F.SAD_CYCLES.CYCLES : Fld := ⟨0x700C, 0, 32⟩
abbrev A.SAD_CYCLES_PEAK : Nat := 0x7010
abbrev F.SAD_CYCLES_PEAK.CYCLES : Fld := ⟨0x7010, 0, 32⟩
abbrev A.SAD_SAT_COUNT : Nat := 0x7014
abbrev F.SAD_SAT_COUNT.COUNT : Fld := ⟨0x7014, 0, 32⟩
abbrev A.SAD_CTRL_END : Nat := 0x7018
abbrev F.SAD_CTRL_END.TICKS : Fld := ⟨0x7018, 0, 24⟩
abbrev A.SAD_CTRL_FRAME : Nat := 0x701C
abbrev F.SAD_CTRL_FRAME.FRAME : Fld := ⟨0x701C, 0, 32⟩

/-! ### VALE -/

abbrev A.VALE_STATUS : Nat := 0x8000
abbrev F.VALE_STATUS.ENTRY : Fld := ⟨0x8000, 16, 16⟩
abbrev F.VALE_STATUS.FENCED : Fld := ⟨0x8000, 3, 1⟩
abbrev F.VALE_STATUS.EXACT : Fld := ⟨0x8000, 2, 1⟩
abbrev F.VALE_STATUS.WALKING : Fld := ⟨0x8000, 1, 1⟩
abbrev F.VALE_STATUS.BUSY : Fld := ⟨0x8000, 0, 1⟩
abbrev A.VALE_CLK : Nat := 0x8004
abbrev F.VALE_CLK.ACT_MHZ : Fld := ⟨0x8004, 16, 10⟩
abbrev F.VALE_CLK.REQ_MHZ : Fld := ⟨0x8004, 0, 10⟩
abbrev A.VALE_VOLT : Nat := 0x8008
abbrev F.VALE_VOLT.SAFE_MV : Fld := ⟨0x8008, 16, 16⟩
abbrev F.VALE_VOLT.ISLAND_MV : Fld := ⟨0x8008, 0, 16⟩
abbrev A.VALE_EVENTS : Nat := 0x800C
abbrev F.VALE_EVENTS.CLR_PEAK : Fld := ⟨0x800C, 31, 1⟩
abbrev F.VALE_EVENTS.WALK_RANGE : Fld := ⟨0x800C, 2, 1⟩
abbrev F.VALE_EVENTS.NAN_IN : Fld := ⟨0x800C, 1, 1⟩
abbrev F.VALE_EVENTS.SATURATE : Fld := ⟨0x800C, 0, 1⟩
abbrev A.VALE_LAST_UNIT : Nat := 0x8010
abbrev F.VALE_LAST_UNIT.ENTRY : Fld := ⟨0x8010, 16, 16⟩
abbrev F.VALE_LAST_UNIT.UNIT_ID : Fld := ⟨0x8010, 0, 16⟩
abbrev A.VALE_CYCLES : Nat := 0x8014
abbrev F.VALE_CYCLES.CYCLES : Fld := ⟨0x8014, 0, 32⟩
abbrev A.VALE_CYCLES_PEAK : Nat := 0x8018
abbrev F.VALE_CYCLES_PEAK.CYCLES : Fld := ⟨0x8018, 0, 32⟩
abbrev A.VALE_SAT_COUNT : Nat := 0x801C
abbrev F.VALE_SAT_COUNT.COUNT : Fld := ⟨0x801C, 0, 32⟩
abbrev A.APX_VSTATE : Nat := 0x8800
abbrev F.APX_VSTATE.HELD : Fld := ⟨0x8800, 30, 2⟩
abbrev F.APX_VSTATE.QUIET : Fld := ⟨0x8800, 26, 4⟩
abbrev F.APX_VSTATE.OFFSET : Fld := ⟨0x8800, 21, 5⟩
abbrev F.APX_VSTATE.AT_SAFE : Fld := ⟨0x8800, 20, 1⟩
abbrev F.APX_VSTATE.TARGET_MV : Fld := ⟨0x8800, 10, 10⟩
abbrev A.APX_VCFG : Nat := 0x8804
abbrev F.APX_VCFG.BACKOFF : Fld := ⟨0x8804, 28, 4⟩
abbrev F.APX_VCFG.DOWN_TICKS : Fld := ⟨0x8804, 24, 4⟩
abbrev F.APX_VCFG.LO : Fld := ⟨0x8804, 16, 8⟩
abbrev F.APX_VCFG.HI : Fld := ⟨0x8804, 8, 8⟩
abbrev F.APX_VCFG.OS_MAX : Fld := ⟨0x8804, 0, 5⟩
abbrev A.APX_REPLAY_WAVES : Nat := 0x8808
abbrev F.APX_REPLAY_WAVES.COUNT : Fld := ⟨0x8808, 0, 32⟩
abbrev A.APX_REPLAY_CYCLES : Nat := 0x880C
abbrev F.APX_REPLAY_CYCLES.COUNT : Fld := ⟨0x880C, 0, 32⟩
abbrev A.APX_BUDGET : Nat := 0x8810
abbrev F.APX_BUDGET.COUNT : Fld := ⟨0x8810, 0, 32⟩
abbrev A.APX_EVENTS : Nat := 0x8814
abbrev F.APX_EVENTS.HOLD : Fld := ⟨0x8814, 3, 1⟩
abbrev F.APX_EVENTS.STUCK : Fld := ⟨0x8814, 2, 1⟩
abbrev F.APX_EVENTS.STORM : Fld := ⟨0x8814, 1, 1⟩
abbrev F.APX_EVENTS.EXHAUST : Fld := ⟨0x8814, 0, 1⟩
abbrev A.APX_EXHAUST_LOG : Nat := 0x8818
abbrev F.APX_EXHAUST_LOG.ENTRY : Fld := ⟨0x8818, 16, 16⟩
abbrev F.APX_EXHAUST_LOG.OVERDRAW : Fld := ⟨0x8818, 0, 16⟩
abbrev A.APX_SKIP_PAIRS : Nat := 0x881C
abbrev F.APX_SKIP_PAIRS.COUNT : Fld := ⟨0x881C, 0, 32⟩
abbrev A.APX_SKIP_CHUNKS : Nat := 0x8820
abbrev F.APX_SKIP_CHUNKS.COUNT : Fld := ⟨0x8820, 0, 32⟩

/-! ### PASS -/

abbrev A.PASS_STATUS : Nat := 0xE000
abbrev F.PASS_STATUS.RUNNING : Fld := ⟨0xE000, 0, 20⟩
abbrev A.PASS_ROUTE : Nat := 0xE004
abbrev F.PASS_ROUTE.W_MAINT : Fld := ⟨0xE004, 12, 4⟩
abbrev F.PASS_ROUTE.W_BULK : Fld := ⟨0xE004, 8, 4⟩
abbrev F.PASS_ROUTE.W_RESULT : Fld := ⟨0xE004, 4, 4⟩
abbrev F.PASS_ROUTE.ORDER : Fld := ⟨0xE004, 0, 4⟩
abbrev A.PASS_EVENTS : Nat := 0xE008
abbrev F.PASS_EVENTS.RESET_ABORT : Fld := ⟨0xE008, 1, 1⟩
abbrev F.PASS_EVENTS.CTRL_FLIT_LATE : Fld := ⟨0xE008, 0, 1⟩
abbrev A.PASS_CTRL_FLITS : Nat := 0xE00C
abbrev F.PASS_CTRL_FLITS.VALUE : Fld := ⟨0xE00C, 0, 32⟩
abbrev A.PASS_CTRL_PEAK : Nat := 0xE010
abbrev F.PASS_CTRL_PEAK.VALUE : Fld := ⟨0xE010, 0, 32⟩
abbrev A.Q_OPS : Nat := 0xE020
abbrev F.Q_OPS.COUNT : Fld := ⟨0xE020, 0, 32⟩
abbrev A.Q_SEL : Nat := 0xE040
abbrev F.Q_SEL.QUEUE : Fld := ⟨0xE040, 0, 16⟩
abbrev A.Q_SNAP : Nat := 0xE044
abbrev F.Q_SNAP.BYTES : Fld := ⟨0xE044, 0, 32⟩
abbrev A.Q_EVENTS : Nat := 0xE064
abbrev F.Q_EVENTS.CTRL_LATE : Fld := ⟨0xE064, 5, 1⟩
abbrev F.Q_EVENTS.UNFREEZE_REJECTED : Fld := ⟨0xE064, 4, 1⟩
abbrev F.Q_EVENTS.FROZEN : Fld := ⟨0xE064, 3, 1⟩
abbrev F.Q_EVENTS.BROKEN : Fld := ⟨0xE064, 2, 1⟩
abbrev F.Q_EVENTS.DROP : Fld := ⟨0xE064, 1, 1⟩
abbrev F.Q_EVENTS.NOT_ACTIVE : Fld := ⟨0xE064, 0, 1⟩
abbrev A.Q_LAST_EVENT : Nat := 0xE068
abbrev F.Q_LAST_EVENT.STATUS : Fld := ⟨0xE068, 16, 4⟩
abbrev F.Q_LAST_EVENT.QUEUE : Fld := ⟨0xE068, 0, 16⟩
abbrev A.Q_FREEZE_CTRL : Nat := 0xE06C
abbrev F.Q_FREEZE_CTRL.ACTION : Fld := ⟨0xE06C, 16, 2⟩
abbrev F.Q_FREEZE_CTRL.QUEUE : Fld := ⟨0xE06C, 0, 16⟩
abbrev A.Q_FROZEN_COUNT : Nat := 0xE070
abbrev F.Q_FROZEN_COUNT.COUNT : Fld := ⟨0xE070, 0, 17⟩
abbrev A.QH_CTRL : Nat := 0xE080
abbrev F.QH_CTRL.OP : Fld := ⟨0xE080, 16, 2⟩
abbrev F.QH_CTRL.QUEUE : Fld := ⟨0xE080, 0, 16⟩
abbrev A.QH_STATUS : Nat := 0xE084
abbrev F.QH_STATUS.POISON : Fld := ⟨0xE084, 5, 1⟩
abbrev F.QH_STATUS.BUSY : Fld := ⟨0xE084, 4, 1⟩
abbrev F.QH_STATUS.STATUS : Fld := ⟨0xE084, 0, 4⟩
abbrev A.QH_DATA : Nat := 0xE0C0
abbrev F.QH_DATA.BYTES : Fld := ⟨0xE0C0, 0, 32⟩
abbrev A.CTRL_LAT_LAST : Nat := 0xE100
abbrev F.CTRL_LAT_LAST.CYCLES : Fld := ⟨0xE100, 0, 24⟩
abbrev A.CTRL_LAT_PEAK : Nat := 0xE104
abbrev F.CTRL_LAT_PEAK.CYCLES : Fld := ⟨0xE104, 0, 24⟩
abbrev A.CTRL_COUNTS : Nat := 0xE108
abbrev F.CTRL_COUNTS.LATE : Fld := ⟨0xE108, 24, 8⟩
abbrev F.CTRL_COUNTS.NOT_APPLIED : Fld := ⟨0xE108, 16, 8⟩
abbrev F.CTRL_COUNTS.APPLIED : Fld := ⟨0xE108, 0, 16⟩
abbrev A.CTRL_LAST_FRAME : Nat := 0xE10C
abbrev F.CTRL_LAST_FRAME.FRAME : Fld := ⟨0xE10C, 0, 32⟩

/-! ### MEMORY -/

abbrev A.RT_STATUS : Nat := 0xFC00
abbrev F.RT_STATUS.MOVES_LEFT : Fld := ⟨0xFC00, 16, 8⟩
abbrev F.RT_STATUS.VERSION : Fld := ⟨0xFC00, 8, 8⟩
abbrev F.RT_STATUS.FROZEN : Fld := ⟨0xFC00, 1, 1⟩
abbrev F.RT_STATUS.PENDING : Fld := ⟨0xFC00, 0, 1⟩
abbrev A.RT_CTRL : Nat := 0xFC04
abbrev F.RT_CTRL.CLR_COUNTS : Fld := ⟨0xFC04, 1, 1⟩
abbrev F.RT_CTRL.FREEZE : Fld := ⟨0xFC04, 0, 1⟩
abbrev A.RT_EVENTS : Nat := 0xFC08
abbrev F.RT_EVENTS.PLACE_SKIP : Fld := ⟨0xFC08, 3, 1⟩
abbrev F.RT_EVENTS.LOOP_EMPTY : Fld := ⟨0xFC08, 2, 1⟩
abbrev F.RT_EVENTS.LOOP_CLAMP : Fld := ⟨0xFC08, 1, 1⟩
abbrev F.RT_EVENTS.DROPPED : Fld := ⟨0xFC08, 0, 1⟩
abbrev A.RT_SEL : Nat := 0xFC0C
abbrev F.RT_SEL.EXPERT : Fld := ⟨0xFC0C, 8, 6⟩
abbrev F.RT_SEL.LAYER : Fld := ⟨0xFC0C, 0, 4⟩
abbrev A.RT_LOAD : Nat := 0xFC10
abbrev F.RT_LOAD.DEMAND : Fld := ⟨0xFC10, 16, 16⟩
abbrev F.RT_LOAD.ACCEPTED : Fld := ⟨0xFC10, 0, 16⟩
abbrev A.RT_LOAD_PERIOD : Nat := 0xFC14
abbrev F.RT_LOAD_PERIOD.DEMAND : Fld := ⟨0xFC14, 0, 32⟩
abbrev A.RT_REPLICAS : Nat := 0xFC18
abbrev F.RT_REPLICAS.PENDING : Fld := ⟨0xFC18, 8, 8⟩
abbrev F.RT_REPLICAS.IN_FORCE : Fld := ⟨0xFC18, 0, 8⟩
abbrev A.RT_LAYER_TICK : Nat := 0xFC1C
abbrev F.RT_LAYER_TICK.DROPPED_TOKENS : Fld := ⟨0xFC1C, 16, 16⟩
abbrev F.RT_LAYER_TICK.ROUTED_TOKENS : Fld := ⟨0xFC1C, 0, 16⟩
abbrev A.RT_SEAT : Nat := 0xFD00
abbrev F.RT_SEAT.BANK : Fld := ⟨0xFD00, 17, 1⟩
abbrev F.RT_SEAT.UNAVAILABLE : Fld := ⟨0xFD00, 16, 1⟩
abbrev F.RT_SEAT.PENDING : Fld := ⟨0xFD00, 8, 8⟩
abbrev F.RT_SEAT.IN_FORCE : Fld := ⟨0xFD00, 0, 8⟩
abbrev A.LOOP_COUNT : Nat := 0xFE00
abbrev F.LOOP_COUNT.COUNT : Fld := ⟨0xFE00, 0, 32⟩
abbrev A.LOOPCOUNT_STATUS : Nat := 0xFE40
abbrev F.LOOPCOUNT_STATUS.CLAMPS : Fld := ⟨0xFE40, 16, 16⟩
abbrev F.LOOPCOUNT_STATUS.EMPTIES : Fld := ⟨0xFE40, 0, 16⟩
abbrev A.MEM_STATUS : Nat := 0xF000
abbrev F.MEM_STATUS.REFRESH : Fld := ⟨0xF000, 31, 1⟩
abbrev F.MEM_STATUS.MAP_LINES : Fld := ⟨0xF000, 0, 25⟩
abbrev A.MEM_EVENTS : Nat := 0xF004
abbrev F.MEM_EVENTS.HOST_FORBIDDEN : Fld := ⟨0xF004, 4, 1⟩
abbrev F.MEM_EVENTS.HOST_POISON : Fld := ⟨0xF004, 3, 1⟩
abbrev F.MEM_EVENTS.HOST_PARTIAL : Fld := ⟨0xF004, 2, 1⟩
abbrev F.MEM_EVENTS.GATHER_RANGE : Fld := ⟨0xF004, 1, 1⟩
abbrev F.MEM_EVENTS.NEVER_WRITTEN : Fld := ⟨0xF004, 0, 1⟩
abbrev A.PLAIN_RD_LINES : Nat := 0xF008
abbrev F.PLAIN_RD_LINES.LINES : Fld := ⟨0xF008, 0, 32⟩
abbrev A.PLAIN_WR_LINES : Nat := 0xF00C
abbrev F.PLAIN_WR_LINES.LINES : Fld := ⟨0xF00C, 0, 32⟩
abbrev A.PLAIN_LAT_PEAK : Nat := 0xF010
abbrev F.PLAIN_LAT_PEAK.NS : Fld := ⟨0xF010, 0, 16⟩
abbrev A.PLAIN_NW_ADDR : Nat := 0xF014
abbrev F.PLAIN_NW_ADDR.OFFSET : Fld := ⟨0xF014, 0, 32⟩
abbrev A.HOSTWIN_LINE : Nat := 0xF018
abbrev F.HOSTWIN_LINE.OFFSET : Fld := ⟨0xF018, 0, 32⟩
abbrev A.HOSTWIN_STATUS : Nat := 0xF01C
abbrev F.HOSTWIN_STATUS.OPEN : Fld := ⟨0xF01C, 7, 1⟩
abbrev F.HOSTWIN_STATUS.BYTES : Fld := ⟨0xF01C, 0, 7⟩
abbrev A.MOV_STATUS : Nat := 0xF100
abbrev F.MOV_STATUS.ENTRY : Fld := ⟨0xF100, 16, 16⟩
abbrev F.MOV_STATUS.OP : Fld := ⟨0xF100, 8, 8⟩
abbrev F.MOV_STATUS.DESCENDING : Fld := ⟨0xF100, 1, 1⟩
abbrev F.MOV_STATUS.BUSY : Fld := ⟨0xF100, 0, 1⟩
abbrev A.MOV_LAST_UNIT : Nat := 0xF104
abbrev F.MOV_LAST_UNIT.ENTRY : Fld := ⟨0xF104, 16, 16⟩
abbrev F.MOV_LAST_UNIT.UNIT_ID : Fld := ⟨0xF104, 0, 16⟩
abbrev A.MOV_CYCLES : Nat := 0xF108
abbrev F.MOV_CYCLES.COUNT : Fld := ⟨0xF108, 0, 32⟩
abbrev A.MOV_BYTES : Nat := 0xF10C
abbrev F.MOV_BYTES.COUNT : Fld := ⟨0xF10C, 0, 32⟩
abbrev A.MOV_GATHER_LOG : Nat := 0xF110
abbrev F.MOV_GATHER_LOG.INDEX : Fld := ⟨0xF110, 0, 32⟩

/-! ### ECC -/

abbrev A.ECC_STATUS : Nat := 0x10000
abbrev F.ECC_STATUS.LOST_DIE : Fld := ⟨0x10000, 8, 4⟩
abbrev F.ECC_STATUS.LOSS_CAUSE : Fld := ⟨0x10000, 4, 4⟩
abbrev A.ECC_CTRL : Nat := 0x10004
abbrev F.ECC_CTRL.KEY : Fld := ⟨0x10004, 16, 16⟩
abbrev F.ECC_CTRL.DECLARE : Fld := ⟨0x10004, 4, 1⟩
abbrev F.ECC_CTRL.DIE : Fld := ⟨0x10004, 0, 4⟩
abbrev A.ECC_EVENTS : Nat := 0x10008
abbrev F.ECC_EVENTS.DECLARE_REJECTED : Fld := ⟨0x10008, 6, 1⟩
abbrev F.ECC_EVENTS.POISON_PLAIN_WR : Fld := ⟨0x10008, 5, 1⟩
abbrev F.ECC_EVENTS.CE_RATE : Fld := ⟨0x10008, 4, 1⟩
abbrev F.ECC_EVENTS.DIE_LOST : Fld := ⟨0x10008, 3, 1⟩
abbrev F.ECC_EVENTS.PLAIN_UE : Fld := ⟨0x10008, 2, 1⟩
abbrev F.ECC_EVENTS.SRAM_UE : Fld := ⟨0x10008, 1, 1⟩
abbrev F.ECC_EVENTS.CE : Fld := ⟨0x10008, 0, 1⟩
abbrev A.ECC_SRAM_COUNT : Nat := 0x1000C
abbrev F.ECC_SRAM_COUNT.UE : Fld := ⟨0x1000C, 16, 16⟩
abbrev F.ECC_SRAM_COUNT.CE : Fld := ⟨0x1000C, 0, 16⟩
abbrev A.ECC_PLAIN_COUNT : Nat := 0x10010
abbrev F.ECC_PLAIN_COUNT.UE : Fld := ⟨0x10010, 16, 16⟩
abbrev F.ECC_PLAIN_COUNT.CE : Fld := ⟨0x10010, 0, 16⟩
abbrev A.ECC_SRAM_LOG : Nat := 0x10014
abbrev F.ECC_SRAM_LOG.VALID : Fld := ⟨0x10014, 31, 1⟩
abbrev F.ECC_SRAM_LOG.MEM : Fld := ⟨0x10014, 27, 4⟩
abbrev F.ECC_SRAM_LOG.UE : Fld := ⟨0x10014, 26, 1⟩
abbrev F.ECC_SRAM_LOG.OFFSET : Fld := ⟨0x10014, 0, 26⟩
abbrev A.ECC_PLAIN_LOG : Nat := 0x10018
abbrev F.ECC_PLAIN_LOG.VALID : Fld := ⟨0x10018, 31, 1⟩
abbrev F.ECC_PLAIN_LOG.UE : Fld := ⟨0x10018, 30, 1⟩
abbrev F.ECC_PLAIN_LOG.DIE : Fld := ⟨0x10018, 26, 4⟩
abbrev F.ECC_PLAIN_LOG.LINE : Fld := ⟨0x10018, 0, 24⟩
abbrev A.ECC_THRESH : Nat := 0x1001C
abbrev F.ECC_THRESH.PLAIN_CE : Fld := ⟨0x1001C, 16, 16⟩
abbrev F.ECC_THRESH.SRAM_CE : Fld := ⟨0x1001C, 0, 16⟩
abbrev A.ECC_DIE_CFG : Nat := 0x10020
abbrev F.ECC_DIE_CFG.WINDOW_MS : Fld := ⟨0x10020, 16, 16⟩
abbrev F.ECC_DIE_CFG.THRESH : Fld := ⟨0x10020, 0, 16⟩
abbrev A.ECC_POISON_WR : Nat := 0x10024
abbrev F.ECC_POISON_WR.VALUE : Fld := ⟨0x10024, 0, 32⟩
abbrev A.ECC_POISON_ADDR : Nat := 0x10028
abbrev F.ECC_POISON_ADDR.VALUE : Fld := ⟨0x10028, 0, 32⟩
abbrev A.ECC_DIE_CE : Nat := 0x10040
abbrev F.ECC_DIE_CE.LAST : Fld := ⟨0x10040, 16, 16⟩
abbrev F.ECC_DIE_CE.CURRENT : Fld := ⟨0x10040, 0, 16⟩
abbrev A.SCRUB_CFG : Nat := 0x10100
abbrev F.SCRUB_CFG.PLAIN_S : Fld := ⟨0x10100, 16, 16⟩
abbrev F.SCRUB_CFG.BASIN_S : Fld := ⟨0x10100, 0, 16⟩
abbrev A.SCRUB_BG_PLAIN : Nat := 0x10104
abbrev F.SCRUB_BG_PLAIN.PASSES : Fld := ⟨0x10104, 24, 8⟩
abbrev F.SCRUB_BG_PLAIN.POINTER : Fld := ⟨0x10104, 0, 24⟩
abbrev A.SCRUB_BG_BASIN : Nat := 0x10108
abbrev F.SCRUB_BG_BASIN.PASSES : Fld := ⟨0x10108, 24, 8⟩
abbrev F.SCRUB_BG_BASIN.POINTER : Fld := ⟨0x10108, 0, 24⟩
abbrev A.SCRUB_T_CTRL : Nat := 0x10110
abbrev F.SCRUB_T_CTRL.MEM : Fld := ⟨0x10110, 3, 1⟩
abbrev F.SCRUB_T_CTRL.ABORT : Fld := ⟨0x10110, 1, 1⟩
abbrev F.SCRUB_T_CTRL.GO : Fld := ⟨0x10110, 0, 1⟩
abbrev A.SCRUB_T_START : Nat := 0x10114
abbrev F.SCRUB_T_START.VALUE : Fld := ⟨0x10114, 0, 32⟩
abbrev A.SCRUB_T_COUNT : Nat := 0x10118
abbrev F.SCRUB_T_COUNT.VALUE : Fld := ⟨0x10118, 0, 32⟩
abbrev A.SCRUB_T_STATUS : Nat := 0x1011C
abbrev F.SCRUB_T_STATUS.RESULT : Fld := ⟨0x1011C, 30, 2⟩
abbrev F.SCRUB_T_STATUS.BUSY : Fld := ⟨0x1011C, 29, 1⟩
abbrev F.SCRUB_T_STATUS.VISITED : Fld := ⟨0x1011C, 0, 25⟩
abbrev A.SCRUB_T_CE : Nat := 0x10120
abbrev F.SCRUB_T_CE.VALUE : Fld := ⟨0x10120, 0, 32⟩
abbrev A.SCRUB_T_UE : Nat := 0x10124
abbrev F.SCRUB_T_UE.VALUE : Fld := ⟨0x10124, 0, 32⟩
abbrev A.SCRUB_T_SKIP : Nat := 0x10128
abbrev F.SCRUB_T_SKIP.VALUE : Fld := ⟨0x10128, 0, 32⟩
abbrev A.SCRUB_T_FIRST : Nat := 0x1012C
abbrev F.SCRUB_T_FIRST.VALUE : Fld := ⟨0x1012C, 0, 32⟩
abbrev A.SCRUB_T_LAST : Nat := 0x10130
abbrev F.SCRUB_T_LAST.VALUE : Fld := ⟨0x10130, 0, 32⟩
abbrev A.SCRUB_EVENTS : Nat := 0x10134
abbrev F.SCRUB_EVENTS.BUSY_IGNORED : Fld := ⟨0x10134, 1, 1⟩
abbrev F.SCRUB_EVENTS.DONE : Fld := ⟨0x10134, 0, 1⟩

/-! ### LOOP -/

abbrev A.LOOP_STATUS : Nat := 0x11000
abbrev F.LOOP_STATUS.HELD_RUN : Fld := ⟨0x11000, 24, 8⟩
abbrev F.LOOP_STATUS.LAST_RESULT : Fld := ⟨0x11000, 20, 4⟩
abbrev F.LOOP_STATUS.STALLED : Fld := ⟨0x11000, 1, 1⟩
abbrev F.LOOP_STATUS.VCM_OWNER : Fld := ⟨0x11000, 0, 1⟩
abbrev A.LOOP_CTRL : Nat := 0x11004
abbrev F.LOOP_CTRL.HOLD_LIMIT : Fld := ⟨0x11004, 8, 8⟩
abbrev F.LOOP_CTRL.VCM_OWNER : Fld := ⟨0x11004, 0, 1⟩
abbrev A.LOOP_EVENTS : Nat := 0x11008
abbrev F.LOOP_EVENTS.STALE : Fld := ⟨0x11008, 6, 1⟩
abbrev F.LOOP_EVENTS.TARGET_CLAMP : Fld := ⟨0x11008, 5, 1⟩
abbrev F.LOOP_EVENTS.RANGE_REJECT : Fld := ⟨0x11008, 4, 1⟩
abbrev F.LOOP_EVENTS.ENABLE_REJECTED : Fld := ⟨0x11008, 3, 1⟩
abbrev F.LOOP_EVENTS.STALLED : Fld := ⟨0x11008, 2, 1⟩
abbrev F.LOOP_EVENTS.HELD : Fld := ⟨0x11008, 1, 1⟩
abbrev F.LOOP_EVENTS.APPLIED : Fld := ⟨0x11008, 0, 1⟩
abbrev A.LOOP_FRAME : Nat := 0x1100C
abbrev F.LOOP_FRAME.FRAME : Fld := ⟨0x1100C, 0, 32⟩
abbrev A.VCM_CTRL : Nat := 0x11020
abbrev F.VCM_CTRL.RANGE : Fld := ⟨0x11020, 1, 1⟩
abbrev F.VCM_CTRL.ENABLE : Fld := ⟨0x11020, 0, 1⟩
abbrev A.VCM_TARGET : Nat := 0x11024
abbrev F.VCM_TARGET.UA : Fld := ⟨0x11024, 0, 24⟩
abbrev A.VCM_SLEW : Nat := 0x11028
abbrev F.VCM_SLEW.MA_PER_MS : Fld := ⟨0x11028, 0, 12⟩
abbrev A.VCM_STATUS : Nat := 0x1102C
abbrev F.VCM_STATUS.CODE : Fld := ⟨0x1102C, 16, 16⟩
abbrev F.VCM_STATUS.Z_CAUSE : Fld := ⟨0x1102C, 13, 3⟩
abbrev F.VCM_STATUS.SUPPLY_OK : Fld := ⟨0x1102C, 12, 1⟩
abbrev F.VCM_STATUS.HANDOVER : Fld := ⟨0x1102C, 11, 1⟩
abbrev F.VCM_STATUS.RAMPING : Fld := ⟨0x1102C, 10, 1⟩
abbrev F.VCM_STATUS.RANGE : Fld := ⟨0x1102C, 9, 1⟩
abbrev F.VCM_STATUS.DRIVING : Fld := ⟨0x1102C, 8, 1⟩
abbrev A.VCM_TARGET_FORCE : Nat := 0x11030
abbrev F.VCM_TARGET_FORCE.UA : Fld := ⟨0x11030, 0, 24⟩
abbrev A.VCM_DEF_INF : Nat := 0x11034
abbrev F.VCM_DEF_INF.UA : Fld := ⟨0x11034, 0, 24⟩
abbrev A.VCM_DEF_MACRO : Nat := 0x11038
abbrev F.VCM_DEF_MACRO.UA : Fld := ⟨0x11038, 0, 24⟩
abbrev A.LENS_CAL_STATUS : Nat := 0x11040
abbrev F.LENS_CAL_STATUS.RESULT : Fld := ⟨0x11040, 28, 4⟩
abbrev F.LENS_CAL_STATUS.BUSY : Fld := ⟨0x11040, 27, 1⟩
abbrev F.LENS_CAL_STATUS.IN_FORCE : Fld := ⟨0x11040, 16, 5⟩
abbrev F.LENS_CAL_STATUS.USED : Fld := ⟨0x11040, 0, 16⟩
abbrev A.LENS_CAL_SEL : Nat := 0x11044
abbrev F.LENS_CAL_SEL.SLOT : Fld := ⟨0x11044, 0, 4⟩
abbrev A.LENS_CAL_RD_LO : Nat := 0x11048
abbrev F.LENS_CAL_RD_LO.DATA : Fld := ⟨0x11048, 0, 32⟩
abbrev A.LENS_CAL_RD_HI : Nat := 0x1104C
abbrev F.LENS_CAL_RD_HI.DATA : Fld := ⟨0x1104C, 0, 32⟩
abbrev A.LENS_CAL_WR_LO : Nat := 0x11050
abbrev F.LENS_CAL_WR_LO.DATA : Fld := ⟨0x11050, 0, 32⟩
abbrev A.LENS_CAL_WR_HI : Nat := 0x11054
abbrev F.LENS_CAL_WR_HI.DATA : Fld := ⟨0x11054, 0, 32⟩
abbrev A.LENS_CAL_PROG : Nat := 0x11058
abbrev F.LENS_CAL_PROG.KEY : Fld := ⟨0x11058, 16, 16⟩
abbrev F.LENS_CAL_PROG.GO : Fld := ⟨0x11058, 0, 1⟩
abbrev A.PRIV_STATUS : Nat := 0x11080
abbrev F.PRIV_STATUS.AGREE_RUN : Fld := ⟨0x11080, 24, 8⟩
abbrev F.PRIV_STATUS.DISC_COUNT : Fld := ⟨0x11080, 16, 8⟩
abbrev F.PRIV_STATUS.FAULT : Fld := ⟨0x11080, 5, 1⟩
abbrev F.PRIV_STATUS.EFFECTIVE : Fld := ⟨0x11080, 4, 1⟩
abbrev F.PRIV_STATUS.AGREED : Fld := ⟨0x11080, 3, 1⟩
abbrev F.PRIV_STATUS.PIN_B : Fld := ⟨0x11080, 1, 1⟩
abbrev F.PRIV_STATUS.PIN_A : Fld := ⟨0x11080, 0, 1⟩
abbrev A.PRIV_CFG : Nat := 0x11084
abbrev F.PRIV_CFG.DISC_TIME : Fld := ⟨0x11084, 0, 8⟩
abbrev A.PRIV_CTRL : Nat := 0x11088
abbrev F.PRIV_CTRL.KEY : Fld := ⟨0x11088, 16, 16⟩
abbrev F.PRIV_CTRL.CLEAR : Fld := ⟨0x11088, 0, 1⟩
abbrev A.PRIV_EVENTS : Nat := 0x1108C
abbrev F.PRIV_EVENTS.CLEAR_REJECTED : Fld := ⟨0x1108C, 4, 1⟩
abbrev F.PRIV_EVENTS.FAULT : Fld := ⟨0x1108C, 3, 1⟩
abbrev F.PRIV_EVENTS.DISAGREE : Fld := ⟨0x1108C, 2, 1⟩
abbrev F.PRIV_EVENTS.RELEASED : Fld := ⟨0x1108C, 1, 1⟩
abbrev F.PRIV_EVENTS.ENGAGED : Fld := ⟨0x1108C, 0, 1⟩

/-! ### HOSTIF -/

abbrev A.HIF_STATUS : Nat := 0x12000
abbrev F.HIF_STATUS.XSPI_8D : Fld := ⟨0x12000, 9, 1⟩
abbrev F.HIF_STATUS.WQ_FULL : Fld := ⟨0x12000, 8, 1⟩
abbrev F.HIF_STATUS.WQ_LEVEL : Fld := ⟨0x12000, 0, 8⟩
abbrev A.HIF_EVENTS : Nat := 0x12004
abbrev F.HIF_EVENTS.STRETCH_TIMEOUT : Fld := ⟨0x12004, 4, 1⟩
abbrev F.HIF_EVENTS.GLANCE_POISON : Fld := ⟨0x12004, 3, 1⟩
abbrev F.HIF_EVENTS.BAD_COMMAND : Fld := ⟨0x12004, 2, 1⟩
abbrev F.HIF_EVENTS.FETCH_DISCARD : Fld := ⟨0x12004, 1, 1⟩
abbrev F.HIF_EVENTS.WRITE_OVERFLOW : Fld := ⟨0x12004, 0, 1⟩
abbrev A.HIF_IRQ_STATUS : Nat := 0x12008
abbrev F.HIF_IRQ_STATUS.TIME : Fld := ⟨0x12008, 6, 1⟩
abbrev F.HIF_IRQ_STATUS.CSI : Fld := ⟨0x12008, 5, 1⟩
abbrev F.HIF_IRQ_STATUS.IMAGE : Fld := ⟨0x12008, 4, 1⟩
abbrev F.HIF_IRQ_STATUS.STATE : Fld := ⟨0x12008, 3, 1⟩
abbrev F.HIF_IRQ_STATUS.SURVEY : Fld := ⟨0x12008, 2, 1⟩
abbrev F.HIF_IRQ_STATUS.FAULT : Fld := ⟨0x12008, 1, 1⟩
abbrev F.HIF_IRQ_STATUS.PUBLISH : Fld := ⟨0x12008, 0, 1⟩
abbrev A.HIF_IRQ_EN : Nat := 0x1200C
abbrev F.HIF_IRQ_EN.TIME : Fld := ⟨0x1200C, 6, 1⟩
abbrev F.HIF_IRQ_EN.CSI : Fld := ⟨0x1200C, 5, 1⟩
abbrev F.HIF_IRQ_EN.IMAGE : Fld := ⟨0x1200C, 4, 1⟩
abbrev F.HIF_IRQ_EN.STATE : Fld := ⟨0x1200C, 3, 1⟩
abbrev F.HIF_IRQ_EN.SURVEY : Fld := ⟨0x1200C, 2, 1⟩
abbrev F.HIF_IRQ_EN.FAULT : Fld := ⟨0x1200C, 1, 1⟩
abbrev F.HIF_IRQ_EN.PUBLISH : Fld := ⟨0x1200C, 0, 1⟩
abbrev A.XSPI_CFG : Nat := 0x12010
abbrev F.XSPI_CFG.LATENCY : Fld := ⟨0x12010, 0, 6⟩
abbrev A.I3C_STATUS : Nat := 0x12014
abbrev F.I3C_STATUS.IBI_EN : Fld := ⟨0x12014, 9, 1⟩
abbrev F.I3C_STATUS.DA_VALID : Fld := ⟨0x12014, 8, 1⟩
abbrev F.I3C_STATUS.DA : Fld := ⟨0x12014, 0, 7⟩
abbrev A.I3C_PID_LO : Nat := 0x12018
abbrev F.I3C_PID_LO.PID : Fld := ⟨0x12018, 0, 32⟩
abbrev A.I3C_PID_HI : Nat := 0x1201C
abbrev F.I3C_PID_HI.PID : Fld := ⟨0x1201C, 0, 32⟩
abbrev A.CSI_CTRL : Nat := 0x12020
abbrev F.CSI_CTRL.STOP : Fld := ⟨0x12020, 1, 1⟩
abbrev F.CSI_CTRL.START : Fld := ⟨0x12020, 0, 1⟩
abbrev A.CSI_CFG : Nat := 0x12024
abbrev F.CSI_CFG.LANE_MBPS : Fld := ⟨0x12024, 16, 12⟩
abbrev F.CSI_CFG.PERIODIC_DESKEW : Fld := ⟨0x12024, 4, 1⟩
abbrev F.CSI_CFG.CLK_CONT : Fld := ⟨0x12024, 3, 1⟩
abbrev F.CSI_CFG.LANES : Fld := ⟨0x12024, 0, 3⟩
abbrev A.CSI_STATUS : Nat := 0x12028
abbrev F.CSI_STATUS.MBPS : Fld := ⟨0x12028, 16, 12⟩
abbrev F.CSI_STATUS.LANES : Fld := ⟨0x12028, 4, 3⟩
abbrev F.CSI_STATUS.STATE : Fld := ⟨0x12028, 0, 2⟩
abbrev A.CSI_EVENTS : Nat := 0x1202C
abbrev F.CSI_EVENTS.STOPPED : Fld := ⟨0x1202C, 3, 1⟩
abbrev F.CSI_EVENTS.BACKLOG : Fld := ⟨0x1202C, 2, 1⟩
abbrev F.CSI_EVENTS.CROP_CUT : Fld := ⟨0x1202C, 1, 1⟩
abbrev F.CSI_EVENTS.START_REJECTED : Fld := ⟨0x1202C, 0, 1⟩
abbrev A.CSI_FRAMES : Nat := 0x12030
abbrev F.CSI_FRAMES.COUNT : Fld := ⟨0x12030, 0, 32⟩
abbrev A.CSI_CUT_LINES : Nat := 0x12034
abbrev F.CSI_CUT_LINES.COUNT : Fld := ⟨0x12034, 0, 32⟩
abbrev A.TIME_LO : Nat := 0x12040
abbrev F.TIME_LO.NS : Fld := ⟨0x12040, 0, 32⟩
abbrev A.TIME_HI : Nat := 0x12044
abbrev F.TIME_HI.NS : Fld := ⟨0x12044, 0, 32⟩
abbrev A.TIME_SET_LO : Nat := 0x12048
abbrev F.TIME_SET_LO.NS : Fld := ⟨0x12048, 0, 32⟩
abbrev A.TIME_SET_HI : Nat := 0x1204C
abbrev F.TIME_SET_HI.NS : Fld := ⟨0x1204C, 0, 32⟩
abbrev A.TIME_CTRL : Nat := 0x12050
abbrev F.TIME_CTRL.SET_NOW : Fld := ⟨0x12050, 2, 1⟩
abbrev F.TIME_CTRL.DISARM : Fld := ⟨0x12050, 1, 1⟩
abbrev F.TIME_CTRL.ARM : Fld := ⟨0x12050, 0, 1⟩
abbrev A.TIME_STATUS : Nat := 0x12054
abbrev F.TIME_STATUS.LAST_SRC : Fld := ⟨0x12054, 16, 1⟩
abbrev F.TIME_STATUS.EPOCH : Fld := ⟨0x12054, 8, 8⟩
abbrev F.TIME_STATUS.ARMED : Fld := ⟨0x12054, 0, 1⟩
abbrev A.GLANCE_SEQ_LO : Nat := 0x12060
abbrev F.GLANCE_SEQ_LO.SEQ : Fld := ⟨0x12060, 0, 32⟩
abbrev A.GLANCE_SEQ_HI : Nat := 0x12064
abbrev F.GLANCE_SEQ_HI.SEQ : Fld := ⟨0x12064, 0, 32⟩

/-! ### EGRESS -/

abbrev A.EGR_STATUS : Nat := 0x13000
abbrev F.EGR_STATUS.LOWERINGS : Fld := ⟨0x13000, 8, 4⟩
abbrev F.EGR_STATUS.PRIV : Fld := ⟨0x13000, 7, 1⟩
abbrev F.EGR_STATUS.LAST_LEVEL : Fld := ⟨0x13000, 4, 3⟩
abbrev F.EGR_STATUS.CEILING : Fld := ⟨0x13000, 0, 3⟩
abbrev A.EGR_CTRL : Nat := 0x13004
abbrev F.EGR_CTRL.PRIV_LEVEL : Fld := ⟨0x13004, 4, 1⟩
abbrev F.EGR_CTRL.LEVEL : Fld := ⟨0x13004, 0, 3⟩
abbrev A.EGR_EVENTS : Nat := 0x13008
abbrev F.EGR_EVENTS.PRIV_CUT : Fld := ⟨0x13008, 3, 1⟩
abbrev F.EGR_EVENTS.QUEUE_SKIP : Fld := ⟨0x13008, 2, 1⟩
abbrev F.EGR_EVENTS.RECORD_LIMIT : Fld := ⟨0x13008, 1, 1⟩
abbrev F.EGR_EVENTS.CROP_REJECT : Fld := ⟨0x13008, 0, 1⟩
abbrev A.EGR_LAST : Nat := 0x1300C
abbrev F.EGR_LAST.FRAME : Fld := ⟨0x1300C, 0, 32⟩
abbrev A.EGR_COUNTS : Nat := 0x13010
abbrev F.EGR_COUNTS.REJECTED : Fld := ⟨0x13010, 24, 8⟩
abbrev F.EGR_COUNTS.CROPS : Fld := ⟨0x13010, 16, 8⟩
abbrev F.EGR_COUNTS.RECORDS : Fld := ⟨0x13010, 0, 16⟩
abbrev A.SEAL_SESSION : Nat := 0x13020
abbrev F.SEAL_SESSION.VALUE : Fld := ⟨0x13020, 0, 32⟩
abbrev A.SEAL_COUNTER : Nat := 0x13024
abbrev F.SEAL_COUNTER.VALUE : Fld := ⟨0x13024, 0, 32⟩
abbrev A.SEAL_PREFIX_LO : Nat := 0x13028
abbrev F.SEAL_PREFIX_LO.PREFIX : Fld := ⟨0x13028, 0, 32⟩
abbrev A.SEAL_PREFIX_HI : Nat := 0x1302C
abbrev F.SEAL_PREFIX_HI.PREFIX : Fld := ⟨0x1302C, 0, 32⟩
abbrev A.SEAL_INFO : Nat := 0x13030
abbrev F.SEAL_INFO.LIFECYCLE : Fld := ⟨0x13030, 4, 3⟩
abbrev F.SEAL_INFO.KEY_KIND : Fld := ⟨0x13030, 0, 1⟩
abbrev A.SEAL_LAST_TAG : Nat := 0x13040
abbrev F.SEAL_LAST_TAG.BYTES : Fld := ⟨0x13040, 0, 32⟩

/-! ### OTP -/

abbrev A.OTP_STATUS : Nat := 0x14000
abbrev F.OTP_STATUS.OP : Fld := ⟨0x14000, 28, 4⟩
abbrev F.OTP_STATUS.RESULT : Fld := ⟨0x14000, 24, 4⟩
abbrev F.OTP_STATUS.BUSY : Fld := ⟨0x14000, 16, 1⟩
abbrev A.OTP_CTRL : Nat := 0x14004
abbrev F.OTP_CTRL.KEY : Fld := ⟨0x14004, 16, 16⟩
abbrev F.OTP_CTRL.OP : Fld := ⟨0x14004, 12, 4⟩
abbrev F.OTP_CTRL.REGION : Fld := ⟨0x14004, 8, 4⟩
abbrev F.OTP_CTRL.ENC : Fld := ⟨0x14004, 6, 2⟩
abbrev A.OTP_PARAM : Nat := 0x14008
abbrev F.OTP_PARAM.TARGET : Fld := ⟨0x14008, 16, 8⟩
abbrev F.OTP_PARAM.LENGTH : Fld := ⟨0x14008, 0, 9⟩
abbrev A.OTP_VPP : Nat := 0x1400C
abbrev F.OTP_VPP.IN_RANGE : Fld := ⟨0x1400C, 16, 1⟩
abbrev F.OTP_VPP.MV : Fld := ⟨0x1400C, 0, 16⟩
abbrev A.OTP_PROGRESS : Nat := 0x14010
abbrev F.OTP_PROGRESS.DONE : Fld := ⟨0x14010, 16, 16⟩
abbrev F.OTP_PROGRESS.TOTAL : Fld := ⟨0x14010, 0, 16⟩
abbrev A.OTP_WEAK : Nat := 0x14014
abbrev F.OTP_WEAK.FIRST : Fld := ⟨0x14014, 16, 15⟩
abbrev F.OTP_WEAK.LEAKY : Fld := ⟨0x14014, 8, 8⟩
abbrev F.OTP_WEAK.WEAK : Fld := ⟨0x14014, 0, 8⟩
abbrev A.OTP_RD_SEL : Nat := 0x14018
abbrev F.OTP_RD_SEL.REGION : Fld := ⟨0x14018, 0, 4⟩
abbrev A.OTP_EVENTS : Nat := 0x1401C
abbrev F.OTP_EVENTS.MINORITY : Fld := ⟨0x1401C, 3, 1⟩
abbrev F.OTP_EVENTS.WEAK : Fld := ⟨0x1401C, 2, 1⟩
abbrev F.OTP_EVENTS.FAIL : Fld := ⟨0x1401C, 1, 1⟩
abbrev F.OTP_EVENTS.DONE : Fld := ⟨0x1401C, 0, 1⟩
abbrev A.OTP_REGION : Nat := 0x14040
abbrev F.OTP_REGION.MINORITY_BITS : Fld := ⟨0x14040, 16, 16⟩
abbrev F.OTP_REGION.WEAK : Fld := ⟨0x14040, 6, 1⟩
abbrev F.OTP_REGION.RL : Fld := ⟨0x14040, 5, 1⟩
abbrev F.OTP_REGION.WL : Fld := ⟨0x14040, 4, 1⟩
abbrev F.OTP_REGION.ENC : Fld := ⟨0x14040, 2, 2⟩
abbrev F.OTP_REGION.STATE : Fld := ⟨0x14040, 0, 2⟩
abbrev A.OTP_BUF : Nat := 0x14400
abbrev F.OTP_BUF.DATA : Fld := ⟨0x14400, 0, 32⟩
abbrev A.OTP_DATA : Nat := 0x14800
abbrev F.OTP_DATA.DATA : Fld := ⟨0x14800, 0, 32⟩

/-! ### FAULT -/

abbrev A.FLT_ACTIVE : Nat := 0x15000
abbrev F.FLT_ACTIVE.GROUP : Fld := ⟨0x15000, 0, 18⟩
abbrev A.FLT_MASK : Nat := 0x15004
abbrev F.FLT_MASK.GROUP : Fld := ⟨0x15004, 0, 18⟩
abbrev A.FLT_COND : Nat := 0x15008
abbrev F.FLT_COND.COND : Fld := ⟨0x15008, 0, 10⟩
abbrev A.FLT_COND_MASK : Nat := 0x1500C
abbrev F.FLT_COND_MASK.COND : Fld := ⟨0x1500C, 0, 10⟩
abbrev A.VALE_MASK : Nat := 0x15010
abbrev F.VALE_MASK.RUNNING : Fld := ⟨0x15010, 0, 6⟩
abbrev A.FLT_VALE_CAUSE : Nat := 0x15014
abbrev F.FLT_VALE_CAUSE.CAUSE_0 : Fld := ⟨0x15014, 0, 4⟩
abbrev F.FLT_VALE_CAUSE.CAUSE_1 : Fld := ⟨0x15014, 4, 4⟩
abbrev F.FLT_VALE_CAUSE.CAUSE_2 : Fld := ⟨0x15014, 8, 4⟩
abbrev F.FLT_VALE_CAUSE.CAUSE_3 : Fld := ⟨0x15014, 12, 4⟩
abbrev F.FLT_VALE_CAUSE.CAUSE_4 : Fld := ⟨0x15014, 16, 4⟩
abbrev F.FLT_VALE_CAUSE.CAUSE_5 : Fld := ⟨0x15014, 20, 4⟩
abbrev A.FLT_CTRL : Nat := 0x15018
abbrev F.FLT_CTRL.KEY : Fld := ⟨0x15018, 16, 16⟩
abbrev F.FLT_CTRL.MOVER_RESET : Fld := ⟨0x15018, 9, 1⟩
abbrev F.FLT_CTRL.FENCE : Fld := ⟨0x15018, 8, 1⟩
abbrev F.FLT_CTRL.MOVER : Fld := ⟨0x15018, 4, 1⟩
abbrev F.FLT_CTRL.VALE : Fld := ⟨0x15018, 0, 3⟩
abbrev A.FLT_STOP : Nat := 0x1501C
abbrev F.FLT_STOP.CLR : Fld := ⟨0x1501C, 31, 1⟩
abbrev F.FLT_STOP.CODE : Fld := ⟨0x1501C, 0, 16⟩
abbrev A.FLT_FIRST : Nat := 0x15020
abbrev F.FLT_FIRST.CLR : Fld := ⟨0x15020, 31, 1⟩
abbrev F.FLT_FIRST.CODE : Fld := ⟨0x15020, 0, 16⟩
abbrev A.FLT_LOG_HEAD : Nat := 0x15024
abbrev F.FLT_LOG_HEAD.NEXT : Fld := ⟨0x15024, 0, 32⟩
abbrev A.FLT_RECOVERY : Nat := 0x15028
abbrev F.FLT_RECOVERY.COUNT : Fld := ⟨0x15028, 16, 16⟩
abbrev A.FLT_PART : Nat := 0x1502C
abbrev F.FLT_PART.LOST : Fld := ⟨0x1502C, 24, 8⟩
abbrev F.FLT_PART.FROZEN : Fld := ⟨0x1502C, 16, 8⟩
abbrev F.FLT_PART.ABORTS : Fld := ⟨0x1502C, 0, 16⟩
abbrev A.FLT_LOG : Nat := 0x15400
abbrev F.FLT_LOG.BYTES : Fld := ⟨0x15400, 0, 32⟩

/-! ### POWER -/

abbrev A.APX_CTRL : Nat := 0x16800
abbrev F.APX_CTRL.SKIP_OFF : Fld := ⟨0x16800, 2, 1⟩
abbrev F.APX_CTRL.OVERSCALE : Fld := ⟨0x16800, 1, 1⟩
abbrev F.APX_CTRL.EXACT : Fld := ⟨0x16800, 0, 1⟩
abbrev A.APX_STATUS : Nat := 0x16804
abbrev F.APX_STATUS.SKIP_OFF : Fld := ⟨0x16804, 2, 1⟩
abbrev F.APX_STATUS.OVERSCALE : Fld := ⟨0x16804, 1, 1⟩
abbrev F.APX_STATUS.EXACT : Fld := ⟨0x16804, 0, 1⟩
abbrev A.APX_NET : Nat := 0x16810
abbrev F.APX_NET.EN : Fld := ⟨0x16810, 16, 1⟩
abbrev F.APX_NET.NETWORK_ID : Fld := ⟨0x16810, 0, 16⟩
abbrev A.PWR_STATUS : Nat := 0x16000
abbrev F.PWR_STATUS.HIGH : Fld := ⟨0x16000, 6, 6⟩
abbrev F.PWR_STATUS.LOW : Fld := ⟨0x16000, 0, 6⟩
abbrev A.THR_STATUS : Nat := 0x16010
abbrev F.THR_STATUS.SHED : Fld := ⟨0x16010, 16, 16⟩
abbrev F.THR_STATUS.LEVEL : Fld := ⟨0x16010, 14, 2⟩
abbrev F.THR_STATUS.STALE : Fld := ⟨0x16010, 13, 1⟩
abbrev F.THR_STATUS.HOTTEST : Fld := ⟨0x16010, 0, 13⟩
abbrev A.THR_CFG : Nat := 0x16014
abbrev F.THR_CFG.T_CRIT : Fld := ⟨0x16014, 24, 8⟩
abbrev F.THR_CFG.T_L2 : Fld := ⟨0x16014, 16, 8⟩
abbrev F.THR_CFG.T_L1 : Fld := ⟨0x16014, 8, 8⟩
abbrev F.THR_CFG.HYST : Fld := ⟨0x16014, 0, 8⟩
abbrev A.THR_KEEP : Nat := 0x16020
abbrev F.THR_KEEP.EN : Fld := ⟨0x16020, 16, 1⟩
abbrev F.THR_KEEP.NETWORK_ID : Fld := ⟨0x16020, 0, 16⟩

end Sys2Proof.Machine
end

