-- ==== Sys2Proof/Machine/Codes.lean ====
section
/-!
DEFINITION. Machine/Codes.lean: the fault codes (R607) under the names the chapters give them, the severities of
R608, and the device states of R113.
-/
namespace Sys2Proof.Machine

/-- BIST_SADDLE (R133). -/
abbrev Code.BIST_SADDLE : Nat := 0x0001
/-- BIST_VALE (R133). -/
abbrev Code.BIST_VALE : Nat := 0x0002
/-- BIST_TERRACE (R133). -/
abbrev Code.BIST_TERRACE : Nat := 0x0003
/-- BIST_BASIN (R132). -/
abbrev Code.BIST_BASIN : Nat := 0x0004
/-- PLAIN_TRAIN (R133). -/
abbrev Code.PLAIN_TRAIN : Nat := 0x0005
/-- CMD_REJECTED (R157, R158). -/
abbrev Code.CMD_REJECTED : Nat := 0x0006
/-- LC_AUTH_FAIL (R156, on LC_RESULT = 0x6). -/
abbrev Code.LC_AUTH_FAIL : Nat := 0x0007
/-- TICK_OVERRUN (R98). -/
abbrev Code.TICK_OVERRUN : Nat := 0x0101
/-- LOCK_LOST (R82). -/
abbrev Code.LOCK_LOST : Nat := 0x0102
/-- FSYNC_ABSENT (R82). -/
abbrev Code.FSYNC_ABSENT : Nat := 0x0103
/-- SLAVE_LOST (R82). -/
abbrev Code.SLAVE_LOST : Nat := 0x0104
/-- PLL_UNLOCK (R91). -/
abbrev Code.PLL_UNLOCK : Nat := 0x0105
/-- LOAD_FAIL (R187). -/
abbrev Code.LOAD_FAIL : Nat := 0x0201
/-- HOT_LOAD_FAIL (R193). -/
abbrev Code.HOT_LOAD_FAIL : Nat := 0x0202
/-- PUSH_OVERRUN (R183). -/
abbrev Code.PUSH_OVERRUN : Nat := 0x0203
/-- PUSH_IGNORED (R183). -/
abbrev Code.PUSH_IGNORED : Nat := 0x0204
/-- SLOT_A_FAIL (R181). -/
abbrev Code.SLOT_A_FAIL : Nat := 0x0205
/-- PLAIN_BOUNDS (R169). -/
abbrev Code.PLAIN_BOUNDS : Nat := 0x0206
/-- EXP_OWNER (R207). -/
abbrev Code.EXP_OWNER : Nat := 0x0301
/-- DARK_STALE (R221). -/
abbrev Code.DARK_STALE : Nat := 0x0302
/-- SLICE_RETIRED (R237, R238). -/
abbrev Code.SLICE_RETIRED : Nat := 0x0401
/-- GROUP_HALF (R237). -/
abbrev Code.GROUP_HALF : Nat := 0x0402
/-- GROUP_LOST (R237). -/
abbrev Code.GROUP_LOST : Nat := 0x0403
/-- REF_CHECK (R250). -/
abbrev Code.REF_CHECK : Nat := 0x0501
/-- SRV_WINDOW (R259). -/
abbrev Code.SRV_WINDOW : Nat := 0x0502
/-- SRV_OVERFLOW (R258). -/
abbrev Code.SRV_OVERFLOW : Nat := 0x0503
/-- DIODE_RANGE (R249). -/
abbrev Code.DIODE_RANGE : Nat := 0x0504
/-- SURVEY_SLICE (R252). -/
abbrev Code.SURVEY_SLICE : Nat := 0x0505
/-- BL_RANGE (R268). -/
abbrev Code.BL_RANGE : Nat := 0x0601
/-- DEFECT_UNRESOLVED (R279). -/
abbrev Code.DEFECT_UNRESOLVED : Nat := 0x0602
/-- ROW_BL_ABSENT (R269). -/
abbrev Code.ROW_BL_ABSENT : Nat := 0x0603
/-- NAN_INPUT (R294 on the Saddle, the first in a unit). -/
abbrev Code.NAN_INPUT_SADDLE : Nat := 0x0701
/-- WALK_RANGE (R317). -/
abbrev Code.WALK_RANGE : Nat := 0x0801
/-- NAN_INPUT (R294). -/
abbrev Code.NAN_INPUT_VALE : Nat := 0x0802
/-- REPLAY_EXHAUST (R384). -/
abbrev Code.REPLAY_EXHAUST : Nat := 0x0803
/-- REPLAY_STUCK (R382). -/
abbrev Code.REPLAY_STUCK : Nat := 0x0804
/-- QUEUE_NOT_ACTIVE (R476, R477). -/
abbrev Code.QUEUE_NOT_ACTIVE : Nat := 0x0901
/-- QUEUE_FULL (R476). -/
abbrev Code.QUEUE_FULL : Nat := 0x0902
/-- QUEUE_CREDIT (R476). -/
abbrev Code.QUEUE_CREDIT : Nat := 0x0903
/-- QUEUE_DESC_POISON (R479). -/
abbrev Code.QUEUE_DESC_POISON : Nat := 0x0904
/-- QUEUE_OWNER (R477). -/
abbrev Code.QUEUE_OWNER : Nat := 0x0905
/-- QUEUE_FROZEN (R477). -/
abbrev Code.QUEUE_FROZEN : Nat := 0x0906
/-- HOST_QUEUE_FORBIDDEN (R483). -/
abbrev Code.HOST_QUEUE_FORBIDDEN : Nat := 0x0907
/-- CONTROL_LATE (R489). -/
abbrev Code.CONTROL_LATE : Nat := 0x0908
/-- CONTROL_FLIT_LATE (R489). -/
abbrev Code.CONTROL_FLIT_LATE : Nat := 0x0909
/-- QUEUE_OVERSIZE (R476). -/
abbrev Code.QUEUE_OVERSIZE : Nat := 0x090A
/-- NEVER_WRITTEN (R416). -/
abbrev Code.NEVER_WRITTEN : Nat := 0x0A01
/-- GATHER_RANGE (R427). -/
abbrev Code.GATHER_RANGE : Nat := 0x0A02
/-- HOSTWIN_PARTIAL (R418). -/
abbrev Code.HOSTWIN_PARTIAL : Nat := 0x0A03
/-- HOSTWIN_POISON (R408). -/
abbrev Code.HOSTWIN_POISON : Nat := 0x0A04
/-- HOSTWIN_FORBIDDEN (R408). -/
abbrev Code.HOSTWIN_FORBIDDEN : Nat := 0x0A05
/-- LOOP_CLAMP (R373). -/
abbrev Code.LOOP_CLAMP : Nat := 0x0A41
/-- LOOP_EMPTY (R373). -/
abbrev Code.LOOP_EMPTY : Nat := 0x0A42
/-- ROUTE_POISON (R357). -/
abbrev Code.ROUTE_POISON : Nat := 0x0A43
/-- SRAM_CE_RATE (R458). -/
abbrev Code.SRAM_CE_RATE : Nat := 0x0B01
/-- SRAM_UE (R450). -/
abbrev Code.SRAM_UE : Nat := 0x0B02
/-- PLAIN_CE_RATE (R458). -/
abbrev Code.PLAIN_CE_RATE : Nat := 0x0B03
/-- PLAIN_UE (R450). -/
abbrev Code.PLAIN_UE : Nat := 0x0B04
/-- PLAIN_DIE_LOST (R445). -/
abbrev Code.PLAIN_DIE_LOST : Nat := 0x0B05
/-- PLAIN_DIE_SECOND (R446). -/
abbrev Code.PLAIN_DIE_SECOND : Nat := 0x0B06
/-- SCRUB_UE (R453). -/
abbrev Code.SCRUB_UE : Nat := 0x0B07
/-- POISON_PLAIN_WR (R448). -/
abbrev Code.POISON_PLAIN_WR : Nat := 0x0B08
/-- LOOP_HOLD (R498). -/
abbrev Code.LOOP_HOLD : Nat := 0x0C01
/-- LOOP_STALLED (R498). -/
abbrev Code.LOOP_STALLED : Nat := 0x0C02
/-- VCM_SUPPLY (R506, R53). -/
abbrev Code.VCM_SUPPLY : Nat := 0x0C03
/-- VCM_TRACK (R506). -/
abbrev Code.VCM_TRACK : Nat := 0x0C04
/-- VCM_RANGE_REJECT (R505). -/
abbrev Code.VCM_RANGE_REJECT : Nat := 0x0C05
/-- PRIV_FAULT (R512). -/
abbrev Code.PRIV_FAULT : Nat := 0x0C06
/-- VCM_ENABLE_REJECT (R503). -/
abbrev Code.VCM_ENABLE_REJECT : Nat := 0x0C07
/-- LENS_CAL_FAIL (R509). -/
abbrev Code.LENS_CAL_FAIL : Nat := 0x0C08
/-- CSI_CROP_CUT (R543). -/
abbrev Code.CSI_CROP_CUT : Nat := 0x0D01
/-- CSI_BACKLOG (R543). -/
abbrev Code.CSI_BACKLOG : Nat := 0x0D02
/-- HOST_WRITE_OVERFLOW (R521). -/
abbrev Code.HOST_WRITE_OVERFLOW : Nat := 0x0D03
/-- XSPI_BAD_COMMAND (R524). -/
abbrev Code.XSPI_BAD_COMMAND : Nat := 0x0D04
/-- RECORD_LIMIT (R562). -/
abbrev Code.RECORD_LIMIT : Nat := 0x0E01
/-- OUT_QUEUE_SKIP (R563). -/
abbrev Code.OUT_QUEUE_SKIP : Nat := 0x0E02
/-- CROP_REJECTED (R566). -/
abbrev Code.CROP_REJECTED : Nat := 0x0E03
/-- OTP_PROG_FAIL (Results VPP, CONFLICT and VERIFY_FAIL (R597, R598)). -/
abbrev Code.OTP_PROG_FAIL : Nat := 0x0F01
/-- OTP_WEAK (R603). -/
abbrev Code.OTP_WEAK : Nat := 0x0F02
/-- OTP_MINORITY (R584). -/
abbrev Code.OTP_MINORITY : Nat := 0x0F03
/-- OTP_PROG_REJECTED (Results BAD_REQUEST, NOT_PERMITTED, NOT_HOLD, LOCKED, SEALED, FORMAT, BUSY and RANGE (R596, R598, R600–R602)). -/
abbrev Code.OTP_PROG_REJECTED : Nat := 0x0F04
/-- VALE_FENCED (R617). -/
abbrev Code.VALE_FENCED : Nat := 0x1001
/-- MOVER_RESET (R623). -/
abbrev Code.MOVER_RESET : Nat := 0x1002
/-- UNSERVED (R621). -/
abbrev Code.UNSERVED : Nat := 0x1003
/-- FAULT_RECORD_OVERFLOW (R614). -/
abbrev Code.FAULT_RECORD_OVERFLOW : Nat := 0x1004
/-- SUPPLY_RANGE (R629). -/
abbrev Code.SUPPLY_RANGE : Nat := 0x1101
/-- VDDL_LOW (R629). -/
abbrev Code.VDDL_LOW : Nat := 0x1102
/-- VDDL_CRITICAL (R629). -/
abbrev Code.VDDL_CRITICAL : Nat := 0x1103
/-- THERMAL_CRITICAL (R632). -/
abbrev Code.THERMAL_CRITICAL : Nat := 0x1104
/-- THERMAL_STALE (R632). -/
abbrev Code.THERMAL_STALE : Nat := 0x1105
/-- THROTTLE (R631). -/
abbrev Code.THROTTLE : Nat := 0x1106

/-- The recordings of severity NOTICE (R608). -/
def noticeCodes : List Nat :=
  [0x0006, 0x0204, 0x0205, 0x0301, 0x0907, 0x0A03, 0x0A04, 0x0A05, 0x0C05, 0x0C07, 0x0D01, 0x0D04, 0x0E03, 0x0F04]

/-- Severity of a recording (R608): 0 NOTICE, 1 ALERT, 2 FATAL. -/
def severityOf (fatal : Bool) (code : Nat) : Nat :=
  if fatal then 2 else if noticeCodes.contains code then 0 else 1

/-- The device states of R113. -/
inductive DevState where
  | off | resetHold | sense | fill | selftest | load | hold | run | degraded | faultStop
  deriving DecidableEq, Repr

/-- DEV_STATE.STATE code of a state (R113). -/
def DevState.code : DevState → Nat
  | .off => 0 | .resetHold => 1 | .sense => 2 | .fill => 3 | .selftest => 4
  | .load => 5 | .hold => 6 | .run => 7 | .degraded => 8 | .faultStop => 9

/-- RUN or DEGRADED: the states in which the tick runs (R68). -/
def DevState.ticking : DevState → Bool
  | .run | .degraded => true
  | _ => false

/-- FILL to DEGRADED: the states a fatal fault leaves for FAULT_STOP (R115). -/
def DevState.live : DevState → Bool
  | .fill | .selftest | .load | .hold | .run | .degraded => true
  | _ => false

/-- The host ports answer from FILL onward (R114). -/
def DevState.portsAnswer : DevState → Bool
  | .off | .resetHold | .sense => false
  | _ => true

/-- HOLD, RUN or DEGRADED: all register writes are acted on (R141). -/
def DevState.open : DevState → Bool
  | .hold | .run | .degraded => true
  | _ => false

end Sys2Proof.Machine
end

