-- ==== Sys2Proof/Machine/StateBase.lean ====
section
/-!
DEFINITION. Machine/StateBase.lean: the parts of the state that the shared operations on registers, faults, memories,
queues and the fabric work over. Everything is plain data.
-/
namespace Sys2Proof.Machine

/-! ### Registers -/

/-- A register file: the words that differ from their reset value. -/
abbrev RegFile := List (Nat × Word)

/-- The word a register reads after the exit from RESET_HOLD (R659); 0 at a reserved word (R658). -/
def resetWord (a : Nat) : Word :=
  match rowOf a with
  | some r => Word.of r.reset
  | none => 0

/-- The word stored at a register. -/
def RegFile.word (f : RegFile) (a : Nat) : Word := Sparse.get resetWord f a

/-- Store a word at a register. -/
def RegFile.put (f : RegFile) (a : Nat) (v : Word) : RegFile := Sparse.set resetWord f a v

/-- A field of a word (R10). -/
def fieldOf (v : Word) (lo w : Nat) : Nat := v.toNat / 2 ^ lo % 2 ^ w

/-- A word with one field replaced. -/
def withField (v : Word) (lo w x : Nat) : Word :=
  let m : Word := Word.of ((2 ^ w - 1) * 2 ^ lo)
  (v &&& ~~~m) ||| (Word.of (x % 2 ^ w * 2 ^ lo))

/-- A field read from a register file. -/
def RegFile.fld (f : RegFile) (d : Fld) : Nat := fieldOf (f.word d.a) d.lo d.w

/-- A register file with one field replaced. -/
def RegFile.setFld (f : RegFile) (d : Fld) (x : Nat) : RegFile := f.put d.a (withField (f.word d.a) d.lo d.w x)

/-! ### Faults (R607 to R614) -/

/-- One entry of the fault ring: the FAULT record payload of R613, and the tick or interval it was made in. -/
structure LogEntry where
  code : Nat
  unit : Nat
  severity : Nat
  repeats : Nat
  slot : Nat
  frame : Nat
  detail : Nat
  time : Nat
  index : Nat
  stamp : Nat
  deriving DecidableEq, Repr

/-! ### Memories (R405, R433, R438, R415) -/


/-- The memories of R405. A cell's key is `memory code · 2^32 + offset`; a cell not listed holds 0. -/
structure Mem where
  /-- Data bits of every SRAM byte (codes 0 to 7, and 9 for the Glance shadow) and data symbols of the Plain (8). -/
  data : List Host.Cell
  /-- Check bits c4..c0 of every SRAM byte; for the Plain, the check symbols of codeword `j` of line `A`, at
  `8·2^32 + 16·A + 2·j` (M8) and the next key (M9). -/
  chk : List Host.Cell
  /-- The line map: lines of the Plain whose bit is 1 (R415). -/
  lines : List (Nat × Bool)
  /-- Corrected SRAM bytes waiting for their write-back (R437), oldest first. -/
  writeBack : List Host.Cell
  /-- Scrubbed Plain lines waiting for their write-back (R453), oldest first. -/
  scrubBack : List (Nat × List Byte)
  /-- The host's Plain line buffer: the line and, byte by byte, what has been written (R418). -/
  hostLine : Option (Nat × List (Option Byte))
  deriving DecidableEq, Repr

/-- A triggered scrub pass in progress (R454, R455): memory (true for the Plain), next unit and units left. -/
structure ScrubPass where
  plain : Bool
  next : Nat
  left : Nat
  deriving DecidableEq, Repr

/-! ### The fabric (R463, R464) -/

/-- Flit types that stand in flight: the replies of R464. -/
inductive ReplyKind where
  | rdData | wrAck | qReply | regReply | resetAbort
  deriving DecidableEq, Repr

/-- A reply in flight: its data with their marks, and the sideband of R463. -/
structure Reply where
  kind : ReplyKind
  /-- Node that answers. -/
  src : Nat
  /-- Node of the requester. -/
  dst : Nat
  vc : Nat
  tag : Nat
  /-- MEM: the memory of the request; 0xF for queue and register traffic. -/
  mem : Nat
  /-- ADDR: the offset of the request; of a queue reply the status (R464, R478, R479). -/
  addr : Nat
  /-- BYTES: those of the request, or of the element (log entry 115). -/
  bytes : Nat
  data : List MByte
  /-- The reply carries a popped element (R619). -/
  popped : Bool
  deriving DecidableEq, Repr

/-- The status that a queue reply carries. -/
abbrev Reply.status (r : Reply) : Nat := r.addr % 16

/-- A push that a STALL queue refused and whose producer sends it again (R476). -/
structure StalledPush where
  lane : Nat
  src : Nat
  queue : Nat
  data : List MByte
  /-- VC and TAG of its Q_PUSH flit; none for a push within a Mover's operation, whose replies the model does not keep. -/
  flit : Option (Nat × Nat)
  deriving DecidableEq, Repr

/-- The fabric's own state. -/
structure Fabric where
  /-- Replies on their way, oldest first. -/
  net : List Reply
  /-- The latest reply each node has received. -/
  arrived : List (Nat × Reply)
  /-- Blocks in partial reset, by node (R619, R624). -/
  down : List Nat
  /-- Queues frozen by each Mover's partial reset and not yet touched (R624), as (queue, mover). -/
  frozenBy : List (Nat × Nat)
  /-- Nanosecond of the reset of each Mover in partial reset (R623), as (mover, time). -/
  resetAt : List (Nat × Nat)
  /-- Pushes waiting for a retry. -/
  stalled : List StalledPush
  deriving DecidableEq, Repr

end Sys2Proof.Machine
end

