-- ==== Sys2Proof/Machine/StateParts.lean ====
section
/-!
DEFINITION. Machine/StateParts.lean: the parts of the state that belong to one block of the device each. A register that
the map shows is in the register file unless its docstring here says otherwise.
-/
namespace Sys2Proof.Machine

/-! ### Start-up and the always-on island (R25, R113 to R130) -/

/-- State of the always-on island that no register shows; RESET_CAUSE, FLT_STOP and the PRIV registers are the
island's too and live in the register file. -/
structure Aon where
  /-- The OTP latch of R129: set by a failed integrity check, cleared only at OFF. -/
  otpLatch : Bool
  /-- Power-good of R122. -/
  powerGood : Bool
  /-- Cause bits that the next exit from RESET_HOLD sets in RESET_CAUSE (R158). -/
  causes : Nat
  deriving DecidableEq, Repr

/-- Progress of a start (R127, R131). -/
structure Startup where
  /-- A valid XCLK count has been taken (R75). -/
  xclkValid : Bool
  /-- OTP has been sensed, the integrity check has passed (R127). -/
  otpChecked : Bool
  /-- SEC runs from PLL_F (R88). -/
  secOnPllF : Bool
  /-- Mask-ROM table overlay words written by ROM patch entries (R588). -/
  overlay : List (Nat × Word)
  /-- The first entry into HOLD is still to come; STARTUP_TIME records it (R140). -/
  timing : Bool
  /-- Nanoseconds at the exit from RESET_HOLD (R140). -/
  exitedAt : Nat
  /-- LOAD was entered by RELOAD (R135). -/
  fromReload : Bool
  deriving DecidableEq, Repr

/-! ### Tick, slaving and schedule (R68 to R110) -/

/-- The masks that an ESTIMATE terrace made in one iteration (R307): query rows, keys, and the pairs kept, row by row. -/
structure SkipMask where
  rows : Nat
  cols : Nat
  kept : List Bool
  /-- Poison marks of the bits. -/
  marks : List Bool
  deriving DecidableEq, Repr

/-- The wave of the pass in progress that was replayed last (R379 to R382). -/
structure Replay where
  /-- The wave, by its number in the pass. -/
  wave : Nat
  /-- Its consecutive replays so far with the island below SAFE_MV, and at SAFE_MV. -/
  low : Nat
  high : Nat
  /-- Nanosecond at which the last of them ends. -/
  ends : Nat
  deriving DecidableEq, Repr

/-- No wave has been replayed. -/
def Replay.none : Replay := ⟨0, 0, 0, 0⟩

/-- A unit in progress on a lane. -/
structure UnitRun where
  entry : Nat
  unit : Nat
  /-- FRAME_OFS of its entry (R95). -/
  ofs : Nat
  /-- The entry and its wiring come from the running image's old bank (R192). -/
  old : Bool
  /-- Next pass to begin (R373). -/
  pass : Nat
  /-- EXACT mode for the whole unit (R396). -/
  exact : Bool
  /-- Nanosecond of its start. -/
  began : Nat
  /-- It waits for its island to reach SAFE_MV (R398). -/
  waiting : Bool
  /-- Replay cycles used against its budget (R383). -/
  replayed : Nat
  replay : Replay
  /-- A predecessor was stopped, or an input carried INCOMPLETE (R98). -/
  tainted : Bool
  poisoned : Bool
  /-- Iteration counts its passes took (R373). -/
  counts : List Nat
  /-- Masks of its last pass with an estimator, by iteration (R308). -/
  masks : List SkipMask
  /-- Faults recorded once per unit, already recorded: bit 0 NaN, 1 walker, 2 gather, 3 exhausted budget. -/
  told : Nat
  deriving DecidableEq, Repr

/-- The tick sequencer and the slaving loop. Times are picoseconds. -/
structure Sched where
  /-- The first tick edge after the entry to RUN is still to come (R73). -/
  starting : Bool
  /-- The tick in progress is a drain tick (R146). -/
  drain : Bool
  /-- Units in progress, by lane 0 to 8 (R94). -/
  lanes : List (Nat × UnitRun)
  /-- Entries of this tick that have ended or been stopped, newest first. -/
  done : List Nat
  /-- Entries of this tick whose outputs are INCOMPLETE (R98), and those of the tick before. -/
  marred : List Nat
  marredPrev : List Nat
  /-- Active rows of this frame whose end of readout has been signalled (R96). -/
  rowsRead : Nat
  /-- The last tick served its entries from the old image's bank (R192). -/
  swapTick : Bool
  /-- Vales fenced, in the order of their fences (R621). -/
  fenceOrder : List Nat
  /-- The Vales fenced last, all at one nanosecond, and that nanosecond (R618). -/
  fencedLast : List Nat
  fencedAt : Nat
  /-- Vales fenced at the edge of the tick in progress, one bit each (R369, R621). -/
  fencedEdge : Nat
  /-- The Vale fenced first when the table in force was chosen (R621). -/
  tableVale : Option Nat
  /-- Slot after the window of the last spill entry that has ended in the tick in progress (R111). -/
  spillEnd : Nat
  /-- Expected edge of the tick in progress (R79). -/
  expected : Int
  /-- The last accepted edge, and whether it came after the last tick edge. -/
  lastEdge : Option Int
  edgeNew : Bool
  /-- The measured FSYNC_IN period, and the length of the last tick in LOCKED (R80). -/
  period : Nat
  lockedLen : Nat
  /-- Phase error still to correct in ACQUIRE (R81). -/
  phase : Int
  /-- Ticks since the entry to ACQUIRE or the last accepted edge (R82). -/
  idleTicks : Nat
  /-- Consecutive accepted edges within ±2 ns, and beyond ±20 ns (R81, R82). -/
  goodEdges : Nat
  badEdges : Nat
  /-- Consecutive missed windows in HOLDOVER (R82). -/
  missed : Nat
  /-- Rising edges counted in FREE, newest first (R82). -/
  freeEdges : List Int
  /-- Acceptance windows by their reference instants, oldest first, and whether each has accepted an edge (R79). -/
  windows : List (Int × Bool)
  /-- Length given to the tick in progress (R80). -/
  length : Nat
  /-- FSYNC_OUT is high (R85). -/
  fsyncOut : Bool
  /-- Nanoseconds at the edges of the tick in progress and of the tick before (R489). -/
  edgeNow : Nat
  edgePrev : Nat
  /-- A HOT_SWAP has ended the tick, and its TICK_EDGE is still to come (R192). -/
  edgeHalf : Bool
  /-- Registers with fields that wait for a tick edge which the host has written at nanosecond `writtenAt`, with the words they
  held before it: a boundary in that same TICK cycle takes these (R20). -/
  written : List (Nat × Word)
  writtenAt : Nat
  deriving DecidableEq, Repr

/-! ### One-time-programmable array (R578 to R606) -/

/-- The fuses themselves. -/
structure Fuses where
  /-- Fuses that read 1 at the normal read. -/
  burned : List (Nat × Bool)
  /-- Burned fuses that fail the program margin (R603). -/
  weak : List (Nat × Bool)
  deriving DecidableEq, Repr

/-- What a programming operation in progress is (R596). -/
inductive OtpKind where
  | ctrl (op region : Nat)
  | lifecycle (target : Nat)
  | lens (slot : Nat)
  deriving DecidableEq, Repr

/-- A programming operation in progress. -/
structure OtpJob where
  kind : OtpKind
  /-- Physical fuses still to burn, in order. -/
  todo : List Nat
  /-- Pulses already given to the fuse at the front (R597). -/
  tries : Nat
  /-- ABORT or FAULT_STOP stops it at the end of the pulse in progress (R599). -/
  stopping : Bool
  deriving DecidableEq, Repr

/-- OTP state of the chip besides the fuses. -/
structure Otp where
  /-- Fuses as SENSE read them: what the regions in force from the exit from RESET_HOLD decode from (R578). -/
  sensed : List (Nat × Bool)
  /-- Fuses as last read: what OTP_REGION, OTP_DATA and the regions in force at once decode from (R581). -/
  lastRead : List (Nat × Bool)
  /-- Fuses of region 10 as SENSE, or the last slot programmed with success, found them: what the slots decode from (R508). -/
  lensRead : List (Nat × Bool)
  /-- Fuses as SENSE, or the start of the last load, found them: what regions 7 and 8 decode from (R578). -/
  loadRead : List (Nat × Bool)
  /-- Regions that the last scan marked (R603), one bit each. -/
  weakRegions : Nat
  job : Option OtpJob
  deriving DecidableEq, Repr

/-! ### The structure image (R160 to R194) -/

/-- A decrypted section of an image. -/
structure Section where
  ty : Nat
  inst : Nat
  body : List Byte
  deriving DecidableEq, Repr

/-- An image that has passed its checks: its 256-byte header and its sections in directory order. -/
structure Image where
  header : List Byte
  sections : List Section
  deriving DecidableEq, Repr

/-- Where a load's bytes come from. -/
inductive LoadSource where
  | push | flashA | flashB
  deriving DecidableEq, Repr

/-- A load in progress. -/
structure Loading where
  source : LoadSource
  hot : Bool
  /-- Bytes of the image so far, in order. -/
  bytes : List Byte
  /-- The 16-byte trailer of a flash load (R179). -/
  trailer : List Byte
  /-- Sections decrypted so far. -/
  sections : List Section
  /-- Plain lines written by the load (R190). -/
  wrote : List (Nat × Nat)
  /-- The load has ended and waits for its clean-up; with the code it failed with, 0 for an abandoned hot load. -/
  failed : Option Nat
  /-- Code and DETAIL that slot A of a flash load failed with (R181). -/
  slotA : Option (Nat × Nat)
  /-- Nanoseconds at its start (IMG_LOAD_TIME). -/
  started : Nat
  deriving DecidableEq, Repr

/-- Image loader state. -/
structure Loader where
  load : Option Loading
  /-- The image in force or admitted. -/
  image : Option Image
  /-- A ready hot image (R191). -/
  hot : Option Image
  /-- The image replaced at the edge of the swap tick in progress; its regions are released at slot S (R192). -/
  old : Option Image
  released : Bool
  /-- A push has ended and no START has been acted on since (R184); and its first surplus byte was recorded. -/
  pushEnded : Bool
  overrunSeen : Bool
  /-- The region record (R189), as the PLAIN_REGIONS body. -/
  record : List Byte
  deriving DecidableEq, Repr

/-! ### Pixels (R196 to R223) -/

/-- Pixel-array state no register shows. -/
structure Pixel where
  /-- STROBE is high (R213); and the frame's pulse was cut by STROBE_MAX (R215) or had no window (R214). -/
  strobe : Bool
  strobeCut : Bool
  strobeNone : Bool
  /-- Privacy has been in effect at some moment since the tick edge of the frame in progress (R510). -/
  strobePriv : Bool
  /-- TRIG edges accepted in the tick in progress, and the stamp of the first (R218). -/
  trigEdges : Nat
  trigFirst : Nat
  /-- Nanoseconds of the first and the last edge accepted since the last decision point of GATE (R219); none when there was none. -/
  trigSince : Option (Nat × Nat)
  /-- The frame after this one is exposed (R219). -/
  nextExposed : Bool
  /-- Metadata copies of TRIG_COUNT and TRIG_STAMP live in the registers; the exposure-start stamp of the frame (R212). -/
  startStamp : Nat
  /-- Rows whose long exposure has opened and not closed, and likewise the short ones, as counts (R203). -/
  openLong : Nat
  openShort : Nat
  /-- Gains in force: bit 0 L, bit 1 S (R206). -/
  gains : Nat
  /-- Dark offsets ΔD_z of the long and short exposure in force, in 2^-32 electron (R220). -/
  darkLong : List Int
  darkShort : List Int
  /-- Tick edges since each Die P diode was converted, or since the entry to RUN (R221). -/
  age0 : Nat
  age1 : Nat
  /-- Codes of the Die P diodes converted since the last tick edge (R221, R249). -/
  conv0 : Option Nat
  conv1 : Option Nat
  deriving DecidableEq, Repr

/-! ### Terrace converters (R224 to R245) -/

/-- One converter group (R225). -/
structure Group where
  /-- Good slices, one bit each. -/
  good : Nat
  /-- The spare, if the mode has one (R230). -/
  spare : Option Nat
  /-- Slices that finished a whole interval as spare since the last entry to RUN (R233). -/
  spent : Nat
  /-- The present spare has held the role since the last boundary (R233). -/
  whole : Bool
  /-- Columns updated under R232 since the last entry to RUN (R233), one bit each. -/
  updated : Nat
  /-- The draw that the coefficients of a group stay at: without a spare (R237), or until updates resume (R234); none while they
  follow the device's. -/
  stay : Option Nat
  deriving DecidableEq, Repr

/-- A group with five good slices, as SELFTEST leaves it. -/
abbrev Group.fresh : Group := ⟨31, some 4, 0, false, 0, none⟩

/-- What is kept per slice, key `5·g + s`. -/
structure SliceRec where
  /-- Retirement cause (R236); 0 for a good slice. -/
  cause : Nat
  /-- An injection conversion was off by more than 8 LSB in this frame, and in the last (R236). -/
  offNow : Bool
  offLast : Bool
  /-- Draw of the weights, which stay from one interval as spare to the next (R231). -/
  weightAt : Nat
  /-- Draw of the skew trim of the slice while it is the spare (R229, R231). -/
  skewAt : Nat
  /-- Draw at which a retired slice's coefficients stay. -/
  held : Option Nat
  /-- The offset, gain or skew trim left its limits in this interval (R236). -/
  rangeSeen : Bool
  /-- Corrected results of the self-calibration conversions of this interval, in 2^-21 LSB, the newest first (R231). -/
  selfCal : List Int
  /-- Sum of the squares of the shadow residuals of this interval, in 2^-72 LSB², and their number (R231, R236). -/
  sumSq : Nat
  pairs : Nat
  /-- TER_SLICE_RESID of the last interval; none when the slice was not shadowed (R244). -/
  resid : Option Nat
  deriving DecidableEq, Repr

abbrev SliceRec.fresh : SliceRec := ⟨0, false, false, 0, 0, none, false, [], 0, 0, none⟩

/-- A sample on its way to the front pipeline (R227, R266). -/
structure Sample where
  /-- Frame it belongs to. -/
  frame : Nat
  /-- Row time, phase and column of the mode in force; columns 8192 to 8195 are the four OB averages. -/
  k : Int
  phase : Nat
  col : Nat
  /-- The code; none for a MISSING sample. -/
  code : Option Nat
  deriving DecidableEq, Repr

/-- The Terrace converters. -/
structure Terrace where
  groups : List (Nat × Group)
  slices : List (Nat × SliceRec)
  /-- D[c] in 2^-15 and C[c] in 1/64 LSB (R228). -/
  colGain : List (Nat × Nat)
  colOfs : List (Nat × Int)
  /-- Injection conversions of this frame before the column terms, in 2^-15/64 LSB: REF_LO of column c at 2c, REF_HI at
  2c + 1 (R232). -/
  inject : List (Nat × Int)
  /-- Draws of coefficient updates so far, and the one of the last SELFTEST's calibration (R235). -/
  draws : Nat
  calDraw : Nat
  /-- Updates stand still since CAL_FREEZE came into force, until the first boundary after it is cleared (R234). -/
  paused : Bool
  /-- Every group was CONVERGED when the first row time of the frame began (R233). -/
  settled : Bool
  /-- The rotation boundary at the start of the next row time has been taken (R230). -/
  boundaryTaken : Bool
  /-- Likewise the checks and updates that follow the second injection (R232, R236). -/
  injectTaken : Bool
  /-- The row time that began last; of a tick in which none has begun, the one before its first. -/
  lastRow : Int
  /-- Samples delivered and not yet taken by the front pipeline, oldest first. -/
  samples : List Sample
  deriving DecidableEq, Repr

/-! ### Survey ADC (R246 to R262) -/

/-- One FIFO entry: tag and data word (R258). -/
structure SurveyEntry where
  tag : Word
  data : Word
  deriving DecidableEq, Repr

/-- A scan in progress (R254): its latched settings and the channels still to convert. -/
structure Scan where
  seq : Nat
  /-- SURVEY cycle of the trigger (R255). -/
  cycle : Nat
  align : Nat
  diff : Nat
  todo : List Nat
  /-- A result of this scan has been discarded (R258). -/
  dropped : Bool
  deriving DecidableEq, Repr

/-- The Survey ADC. -/
structure Survey where
  /-- Results not yet read, oldest first, at most 64 (R258). -/
  fifo : List SurveyEntry
  scan : Option Scan
  /-- Busy until the tracking recovery of the last scan ends (R255). -/
  busy : Bool
  /-- Hold instants so far. -/
  holds : Nat
  /-- Ticks since channels 8 to 15 last gave an unclamped result (R630), by channel. -/
  ages : List (Nat × Nat)
  /-- Last unclamped code of channels 8 to 15. -/
  temps : List (Nat × Nat)
  deriving DecidableEq, Repr

/-! ### Front pipeline (R263 to R291) -/

/-- A pixel after stage 3 (R275, R276). -/
structure Pix where
  /-- Merged value R in binary32 bits. -/
  r : Nat
  /-- Merge weight a in binary32 bits. -/
  a : Nat
  sat : Bool
  motion : Bool
  missing : Bool
  /-- Its short sample was read with a poison mark (R447). -/
  marked : Bool
  deriving DecidableEq, Repr

/-- A MISSING pixel (R266). -/
abbrev Pix.absent : Pix := ⟨0, 0, false, false, true, false⟩

/-- What the front pipeline holds for one frame. -/
structure FrontFrame where
  frame : Nat
  /-- The frame is served by the image replaced at the last swap (R265). -/
  old : Bool
  /-- FRONT and exposure settings latched at its tick edge (R265). -/
  regs : RegFile
  /-- The first row time began with every group CONVERGED (R233). -/
  settled : Bool
  /-- Sum and count of the OB samples of each phase (R268). -/
  obSum : List (Nat × (Nat × Nat))
  /-- Sum and count of the OB column averages, key `4·phase + q` (R269). -/
  avgSum : List (Nat × (Nat × Nat))
  /-- OB column averages of the row time in progress, same keys. -/
  avgRow : List (Nat × Nat)
  /-- Input codes of long reads waiting for their pixel's other reads, key `4·column + phase`; MISSING is 65 536. -/
  held : List (Nat × Nat)
  /-- Short samples marked MISSING, key `row·8192 + column` (R267). -/
  shortMissing : List (Nat × Bool)
  /-- Pixels merged so far, key `row·8192 + column`. -/
  pix : List (Nat × Pix)
  /-- Rows merged in full, and output rows written. -/
  rowsIn : Nat
  rowsOut : Nat
  /-- Faults of R268, R269 and R279 already recorded for the frame, one bit each. -/
  told : Nat
  /-- B[p] of the phases whose black level is complete, in 1/256 code (R268). -/
  black : List (Nat × Nat)
  /-- Gains and dark offsets (long, then short) of the frame's exposures (R206, R220). -/
  gains : Nat
  dark : List Int
  deriving DecidableEq, Repr

/-! ### Vale islands and the replay controllers (R378 to R399, R645) -/

/-- A Vale's island, its controller and the unit-independent counts of the measurement interval in progress. -/
structure Island where
  /-- Safe-voltage points at 200, 400, 600, 800 and 1 000 MHz (R645), in mV. -/
  points : List Nat
  /-- Level at the instant `since`, in mV; the level moves from there toward `goal` (R388). -/
  startMv : Nat
  since : Nat
  goal : Nat
  /-- Target of the tick in progress (R387). -/
  target : Nat
  /-- Why the target of the tick in progress is the safe voltage: the code of APX_VSTATE.HELD (R387, R403). -/
  held : Nat
  /-- Target that the last evaluation set for the next tick (R387). -/
  next : Option Nat
  /-- Why `next` is the safe voltage: HELD of the next tick. -/
  nextHeld : Nat
  offset : Nat
  quiet : Nat
  /-- Held at the safe voltage under R384 or R381: 1 until the next evaluation point, 2 until the tick edge after it. -/
  holdReplay : Nat
  /-- Held under R398, in the same two steps. -/
  holdExact : Nat
  /-- Counts of the interval in progress: U_N, B_N, waves replayed; a unit started, a unit exhausted its budget. -/
  used : Nat
  budget : Nat
  waves : Nat
  started : Bool
  exhausted : Bool
  /-- Overdraw cycles of the unit that exhausted its budget last (R384). -/
  overdraw : Nat
  deriving DecidableEq, Repr

/-! ### Experts (R351 to R371) -/

/-- One expert layer. -/
structure Layer where
  /-- Demand and accepted assignments of the tick in progress, by expert (R364). -/
  demand : List Nat
  accepted : List Nat
  /-- The same of the last completed tick. -/
  lastDemand : List Nat
  lastAccepted : List Nat
  /-- Demand so far in the current period. -/
  period : List Nat
  /-- Tokens routed and tokens with DROPPED, of the tick in progress and of the last. -/
  routed : Nat
  dropped : Nat
  lastRouted : Nat
  lastDropped : Nat
  /-- Expert and active bank of each seat in force; and those of frame N−1 (R368). -/
  seats : List (Option Nat)
  banks : List Bool
  prevSeats : List (Option Nat)
  prevBanks : List Bool
  /-- The pending revision: the new expert of each changed seat (R366). -/
  pending : Option (List (Option Nat))
  /-- Bytes of each pending seat already copied (R367). -/
  copied : List Nat
  /-- Rows of each seat filled in the tick in progress (R355). -/
  fills : List Nat
  /-- The tick in progress began with a switch (R367). -/
  switched : Bool
  /-- A switch, and a decision, falls due at the edge of the tick in progress and has not been made (R364, R368). -/
  dueSwitch : Bool
  dueDecision : Bool
  /-- Ticks since the placement restart (R365). -/
  age : Nat
  version : Nat
  deriving DecidableEq, Repr

/-! ### Supplies and temperature (R628 to R632) -/

/-- A rail's comparator history: 0 VDDPIX, 1 VDDA, 2 VDDIO, 3 VDDL, 4 VDDM, 5 VDDVCM. -/
structure Rail where
  /-- Millivolts at the last sample. -/
  mv : Nat
  /-- State entered: 0 in range, 1 low, 2 high (R628). -/
  state : Nat
  /-- State the last sample showed. -/
  seen : Nat
  /-- Whole ticks spent in range since the return; none before the first tick edge after it (R629). -/
  clean : Option Nat
  deriving DecidableEq, Repr

/-- The POWER block. -/
structure Supply where
  rails : List Rail
  /-- Conditions of FLT_COND bits 6 and 7 in force (R629): out of range, and VDDL below MIN_VDDL_MV. -/
  range : Bool
  vddlLow : Bool
  /-- State of VDDL against MIN_VDDL_MV, and against the critical limit: entered, and shown by the last sample. -/
  low : Bool
  lowSeen : Bool
  lowClean : Option Nat
  critSeen : Bool
  /-- Throttle level in force (R630). -/
  level : Nat
  /-- Units shed in the tick in progress (R631). -/
  shed : Nat
  deriving DecidableEq, Repr

/-! ### Lens driver (R502 to R507) -/

/-- The state of the VCM bridge (R502). -/
inductive Bridge where
  | z | driving | rampOff (cause : Nat)
  deriving DecidableEq, Repr

/-- The VCM driver. -/
structure Vcm where
  bridge : Bridge
  /-- Position of the ramp in 1/FS of a code, where FS is the full scale in µA of the range in force (R501, R504). -/
  pos : Int
  coarse : Bool
  /-- Target in force, µA (R501). -/
  target : Int
  /-- A handover is in progress (R505). -/
  handover : Bool
  /-- An accepted enable waits for a hardware ramp to end (R503). -/
  waiting : Bool
  /-- The bridge has been enabled since the exit from RESET_HOLD (R506). -/
  used : Bool
  /-- VDDVCM is in range (R503). -/
  supplyOk : Bool
  deriving DecidableEq, Repr

/-- A Control unit's end, waiting for the LOOP block to judge its set (R495, R497). -/
structure LoopSet where
  unit : Nat
  frame : Nat
  lane : Nat
  incomplete : Bool
  /-- Nanosecond of its frame's tick edge, and its t_R in cycles of 2 457.6 MHz from that edge (R484, R489). -/
  edge : Nat
  gate : Nat
  elements : List (List MByte)
  deriving DecidableEq, Repr

/-- The LOOP block. -/
structure Loop where
  vcm : Vcm
  /-- Unit ends not yet judged, oldest first. -/
  waiting : List LoopSet
  /-- REPORT data of the two frames in the pipeline, by frame (R497). -/
  reports : List (Nat × List Byte)
  deriving DecidableEq, Repr

/-! ### Host ports (R518 to R549) -/

/-- An entry of the write queue: a register write or window data within one 64-byte block (R521). Its effect has
happened; the entry waits for its acknowledgement (R471). -/
structure Posted where
  addr : Nat
  /-- Its REG flit has reached the block, and the acknowledgement is on its way. -/
  sent : Bool
  deriving DecidableEq, Repr

/-- A port's fetch buffer (R522). -/
structure Fetch where
  addr : Nat
  /-- Posted writes that go before it (R521). -/
  behind : Nat
  /-- The bytes from `addr` to the end of its block; none until the fetch completes. -/
  held : Option (List Byte)
  /-- The held bytes have been returned. -/
  returned : Bool
  deriving DecidableEq, Repr

/-- An xSPI transaction in progress, until XSPI_CS_N rises (R524). -/
inductive Txn where
  | write
  /-- A READ outside the Glance window: its start address and the data bytes clocked. -/
  | read (addr count : Nat)
  | glance
  | mode (eightD : Bool)
  | bad
  deriving DecidableEq, Repr

/-- A packet on CSI-2 (R540): virtual channel, data type, payload bytes; the payload of a short packet is the frame-number field. -/
structure Packet where
  vc : Nat
  dt : Nat
  payload : List Byte
  deriving DecidableEq, Repr

/-- An accepted crop (R566, R567). -/
structure Crop where
  /-- Its CROP_HEADER record. -/
  header : List Byte
  fmt : Nat
  x : Nat
  y : Nat
  w : Nat
  h : Nat
  /-- The plane's descriptor and width, and the data of the tone curve; empty for linear. -/
  plane : List Byte
  width : Nat
  curve : List Byte
  deriving DecidableEq, Repr

/-- A frame being sent (R541). -/
structure CsiFrame where
  frame : Nat
  /-- Packets before the crops, still to send. -/
  front : List Packet
  /-- Crops with a header or rows still to send; of the first, whether its header has been sent, and how many rows. -/
  crops : List Crop
  headed : Bool
  rows : Nat
  /-- Packets after the crops, still to send; none before FE on VC 2, with which they are built. -/
  back : Option (List Packet)
  /-- SESSION, if any, and SEAL. -/
  seals : List (List Byte)
  /-- Head metadata line, and bytes 0x00 to 0x1B of the CROP_SEAL, if the frame has one. -/
  head : List Byte
  cropSeal : Option (List Byte)
  /-- Bytes under the CROP_SEAL tag so far; its key and IV. -/
  tagged : List Byte
  key : List Byte
  rowsSent : Nat
  cutBw : Nat
  cutPriv : Nat
  poisoned : Nat
  /-- Its crop rows were cut for bandwidth, or for privacy. -/
  noRows : Bool
  privStop : Bool
  deriving DecidableEq, Repr

/-- Crop rows still to send. -/
abbrev CsiFrame.rowsLeft (f : CsiFrame) : Nat :=
  if f.noRows || f.privStop then 0 else (f.crops.map fun x : Crop => x.h).foldl (fun a b : Nat => a + b) 0 - f.rows

/-- The host interface block. -/
structure HostIf where
  /-- xSPI mode and the transaction in progress. -/
  eightD : Bool
  txn : Option Txn
  /-- The write queue, oldest entry first (R521). -/
  writes : List Posted
  fetchX : Option Fetch
  fetchI : Option Fetch
  /-- I3C read pointer (R534). -/
  pointer : Nat
  /-- An I²C read is stretching SCL: bytes it still asks for (R534). -/
  stretch : Option Nat
  /-- Transfers are ignored until the HDR exit pattern (R533). -/
  inHdr : Bool
  mwl : Nat
  mrl : Nat
  /-- TIME_HI held for each port (R545). -/
  timeX : Option Word
  timeI : Option Word
  /-- Fraction of the timebase, in picoseconds below 1 000 (R544). -/
  timeFrac : Nat
  /-- Nanosecond and source (0 SET_NOW, 1 an FSYNC_IN edge) of the last set of the timebase (R546). -/
  setAt : Option (Nat × Nat)
  /-- Bytes each port last returned, and whether the I3C port's last answer was a NACK. -/
  outX : List Byte
  outI : List Byte
  nack : Bool
  /-- Glance buffer in front: 0 or 1 (R527). Both lie in memory 9, buffer b from offset 0x2000·b. -/
  front : Nat
  /-- Frames waiting to leave on CSI-2, the one being sent first. -/
  csi : List CsiFrame
  /-- The packet sent last, its bytes on the lanes, and the UI of the deskew sequence sent before it (R538, R542; 0 without one). -/
  packet : Option Packet
  wire : List Byte
  deskew : Nat
  /-- Clock-lane mode and periodic deskew as the last START read them (R537). -/
  clkCont : Bool
  deskewOn : Bool
  /-- The smallest lane count that has taken effect since the exit from RESET_HOLD, 4 before any (R62). -/
  laneFloor : Nat
  deriving DecidableEq, Repr

/-! ### Records and seals (R550 to R577) -/

/-- What the metadata of a frame holds from its tick edge to its publication (R569). -/
structure FrameMeta where
  frame : Nat
  wraps : Nat
  wrapped : Bool
  epoch : Nat
  slave : Nat
  image : Nat
  expL : Word
  expS : Word
  trigCount : Nat
  stamp : Nat
  trigStamp : Nat
  black : List Nat
  modes : List Nat
  vcm : Nat
  ctrlLat : Nat
  privTick : Bool
  flags : Nat
  counts : List Nat
  /-- Marks that the frame's records of a network take (R552): 1 INCOMPLETE, 2 UNSERVED, 4 APPROX, 8 DROPPED, 16 POISONED. -/
  marks : List (Nat × Nat)
  exactBroken : Bool
  served : Bool
  /-- Once published: the Glance page in front last, and the frame's head line, records and SEAL for the later pages. -/
  page : Option Nat
  headLine : List Byte
  records : List (List Byte)
  sealRecord : List Byte
  deriving DecidableEq, Repr

/-- A recovery marker waiting for its frame (R625, R626). -/
structure Recovery where
  cause : Nat
  unit : Nat
  eventFrame : Nat
  logIndex : Nat
  stopped : Nat
  aborts : Nat
  discarded : Nat
  lost : Nat
  frozen : Nat
  events : Nat
  /-- Nanosecond of the latest event. -/
  time : Nat
  /-- Recovery frame, table and Vale mask, once the recovery point has passed. -/
  point : Option (Nat × Nat × Nat)
  deriving DecidableEq, Repr

/-- The egress block. -/
structure Egress where
  /-- Session key (R571); empty before SENSE has passed the integrity check. -/
  key : List Byte
  pfx : Nat
  /-- Prefix of the session before, across resets (R571). -/
  lastPfx : Nat
  /-- The first SEAL of the session is still to come (R574). -/
  announce : Bool
  /-- Frames in the pipeline: metadata by frame, oldest first. -/
  metas : List FrameMeta
  /-- LOG_INDEX after the last entry carried, and an overflow to record. -/
  logFrom : Nat
  recovery : List Recovery
  /-- Frame-number wraps since the entry to RUN. -/
  wraps : Nat
  deriving DecidableEq, Repr

end Sys2Proof.Machine
end

