-- ==== Sys2Proof/Machine/State.lean ====
section
/-!
DEFINITION. Machine/State.lean: the whole state, the reasons a command can stop, and the state after reset.
`State` is the queue of waiting commands, the fuses (which no reset touches) and everything else, `Chip`.
-/
namespace Sys2Proof.Machine

/-- Why a command stops the machine: nothing does. Every fault that the spec describes is an effect on the state (R607 to
R616), so this type has no constructor. -/
inductive Fault where
  deriving DecidableEq, Repr

/-- Why a command has no meaning. -/
inductive Refusal where
  /-- A command that the model gives no meaning yet, by its mnemonic. Raised by `exec` only. Safe: nothing is claimed. -/
  | notModelled (mnemonic : String)
  deriving DecidableEq, Repr

/-- Everything the device holds but its fuses. -/
structure Chip where
  /-- Device state (R113). -/
  dev : DevState
  /-- Mosaic code of the part (R3): 0 EV6050-B, 1 EV6050-W, 2 EV6050-I. -/
  mosaic : Nat
  aon : Aon
  startup : Startup
  /-- Every word of the register map but those that a reading rule computes (`Chip.readWord`). -/
  regs : RegFile
  /-- Values in force of the fields that take effect at the next tick edge (R19). -/
  force : RegFile
  /-- Per-tick counts in progress, by the address of the register that shows the last completed tick's. -/
  tally : List (Nat × Nat)
  /-- Fault ring, newest first, at most 32 entries (R609). -/
  faults : List LogEntry
  /-- Faults that are recorded once per tick, already recorded in this one: code and unit. -/
  once : List (Nat × Nat)
  /-- Ticks and intervals begun so far: what "the same tick" means (R609). -/
  stamp : Nat
  /-- Nanoseconds since the always-on island started, and the timebase (R544). -/
  now : Nat
  timebase : Nat
  /-- Free values drawn so far (the model's own: an argument of the free values of Config). -/
  draws : Nat
  sched : Sched
  mem : Mem
  /-- Length in ms of the die-loss counting window in progress (R444). -/
  eccWindow : Nat
  /-- The triggered scrub pass in progress (R454). -/
  scrub : Option ScrubPass
  fabric : Fabric
  otp : Otp
  loader : Loader
  pixel : Pixel
  terrace : Terrace
  survey : Survey
  /-- Frames in the front pipeline, oldest first (R265). -/
  front : List FrontFrame
  islands : List Island
  layers : List Layer
  /-- Layers of the image replaced at the last swap, for its spill work (R192, R368). -/
  layersOld : List Layer
  supply : Supply
  loop : Loop
  host : HostIf
  egress : Egress
  deriving DecidableEq, Repr

/-- The state of the machine. -/
structure State where
  /-- Commands waiting, first in, first out. -/
  pending : List Instr
  fuses : Fuses
  /-- A bit of HIF_IRQ_STATUS AND HIF_IRQ_EN has become 1 since the last in-band interrupt delivered (R535). -/
  irqDue : Bool
  chip : Chip
  deriving DecidableEq, Repr

/-! ### The state after reset -/

/-- The registers that the always-on island keeps across a reset (R120, R516, R616). -/
def aonRegs : List Nat := [A.RESET_CAUSE, A.FLT_STOP, A.PRIV_STATUS, A.PRIV_CFG, A.PRIV_EVENTS]

/-- The always-on island as it starts (R25, R512): power-on is the cause of the coming exit, privacy is engaged. -/
abbrev Aon.fresh : Aon :=
  { otpLatch := false, powerGood := false, causes := 1 }

abbrev Startup.fresh : Startup :=
  { xclkValid := false, otpChecked := false, secOnPllF := false, overlay := [], timing := true, exitedAt := 0,
    fromReload := false }

abbrev Sched.fresh : Sched :=
  { starting := false, drain := false, lanes := [], done := [], marred := [], marredPrev := [], rowsRead := 0,
    swapTick := false, fenceOrder := [], fencedLast := [], fencedAt := 0, fencedEdge := 0, tableVale := none, spillEnd := 0, expected := 0, lastEdge := none,
    edgeNew := false, period := 0, lockedLen := 0, phase := 0, idleTicks := 0, goodEdges := 0, badEdges := 0, missed := 0,
    freeEdges := [], windows := [], length := 0, fsyncOut := false, edgeNow := 0, edgePrev := 0,
    edgeHalf := false, written := [], writtenAt := 0 }

abbrev Mem.fresh : Mem :=
  { data := [], chk := [], lines := [], writeBack := [], scrubBack := [], hostLine := none }

abbrev Fabric.fresh : Fabric := { net := [], arrived := [], down := [], frozenBy := [], resetAt := [], stalled := [] }

abbrev Otp.fresh : Otp := { sensed := [], lastRead := [], lensRead := [], loadRead := [], weakRegions := 0, job := none }

abbrev Loader.fresh : Loader :=
  { load := none, image := none, hot := none, old := none, released := false, pushEnded := false, overrunSeen := false, record := [] }

abbrev Pixel.fresh : Pixel :=
  { strobe := false, strobeCut := false, strobeNone := false, strobePriv := true, trigEdges := 0, trigFirst := 0, trigSince := none,
    nextExposed := false, startStamp := 0, openLong := 0, openShort := 0, gains := 0, darkLong := [], darkShort := [],
    age0 := 0, age1 := 0, conv0 := none, conv1 := none }

abbrev Terrace.fresh : Terrace :=
  { groups := [], slices := [], colGain := [], colOfs := [], inject := [], draws := 0, settled := false,
    calDraw := 0, paused := false, boundaryTaken := false, injectTaken := false, lastRow := -1, samples := [] }

abbrev Survey.fresh : Survey := { fifo := [], scan := none, busy := false, holds := 0, ages := [], temps := [] }

/-- An island before SELFTEST has set its safe-voltage points: the typical column of R645 stands in (log entry 5). -/
abbrev Island.fresh : Island :=
  { points := [545, 605, 665, 730, 795], startMv := 0, since := 0, goal := 0, target := 0, held := 0, next := none, nextHeld := 0,
    offset := 0, quiet := 0, holdReplay := 0, holdExact := 0, used := 0, budget := 0, waves := 0, started := false,
    exhausted := false, overdraw := 0 }

abbrev Rail.nominal (mv : Nat) : Rail := { mv := mv, state := 0, seen := 0, clean := none }

/-- Rails at their nominal levels (R35). -/
abbrev Supply.fresh : Supply :=
  { rails := [Rail.nominal 2800, Rail.nominal 1800, Rail.nominal 1800, Rail.nominal 750, Rail.nominal 1100,
      Rail.nominal 3300],
    range := false, vddlLow := false, low := false, lowSeen := false, lowClean := none, critSeen := false, level := 0,
    shed := 0 }

abbrev Vcm.fresh : Vcm :=
  { bridge := .z, pos := 0, coarse := false, target := 0, handover := false, waiting := false, used := false,
    supplyOk := false }

/-- The driver at an exit from RESET_HOLD: never enabled since (R506), target and range at their reset values (R503, R516); a ramp
of R51 that still runs keeps what it runs in. -/
def Vcm.afterReset (v : Vcm) : Vcm :=
  if v.bridge = .z then { v with used := false, target := 0, coarse := false } else { v with used := false }

abbrev HostIf.fresh : HostIf :=
  { eightD := false, txn := none, writes := [], fetchX := none, fetchI := none, pointer := 0, stretch := none,
    inHdr := false, mwl := 256, mrl := 64, timeX := none, timeI := none, timeFrac := 0, setAt := none, outX := [],
    outI := [], nack := false, front := 0, csi := [], packet := none,
    wire := [], deskew := 0, clkCont := false, deskewOn := false, laneFloor := 4 }

abbrev Egress.fresh : Egress :=
  { key := [], pfx := 0, lastPfx := 0, announce := true, metas := [], logFrom := 0, recovery := [], wraps := 0 }

/-- The device as it leaves RESET_HOLD and enters SENSE (R125): every register at its reset value (R659) but those that
the always-on island keeps, the straps sampled (R54), everything volatile empty. -/
def Chip.leaveReset (c : Chip) (straps : Nat) : Chip :=
  let kept : RegFile := aonRegs.foldl (fun r a => r.put a (c.regs.word a)) []
  let kept := kept.put A.RESET_CAUSE (kept.word A.RESET_CAUSE ||| Word.of c.aon.causes)
  { c with
    dev := .sense
    aon := { c.aon with causes := 0 }
    startup := { Startup.fresh with exitedAt := c.now }
    regs := kept.put A.STRAPS (Word.of (straps % 8))
    force := []
    tally := []
    faults := []
    once := []
    stamp := 0
    timebase := 0
    sched := Sched.fresh
    mem := Mem.fresh
    eccWindow := 1000
    scrub := none
    fabric := Fabric.fresh
    otp := Otp.fresh
    loader := Loader.fresh
    pixel := Pixel.fresh
    terrace := { Terrace.fresh with draws := c.terrace.draws + 1, calDraw := c.terrace.draws + 1 }
    survey := Survey.fresh
    front := []
    islands := List.replicate 6 Island.fresh
    layers := []
    layersOld := []
    supply := { Supply.fresh with rails := c.supply.rails.map fun r : Rail => Rail.nominal r.mv }
    loop := { vcm := c.loop.vcm.afterReset, waiting := [], reports := [] }
    host := HostIf.fresh
    egress := { Egress.fresh with lastPfx := if c.egress.pfx = 0 then c.egress.lastPfx else c.egress.pfx } }

/-- The device with its always-on island just started, in RESET_HOLD (R25, R115). -/
def Chip.started (mosaic : Nat) : Chip :=
  { dev := .resetHold, mosaic := mosaic, aon := Aon.fresh, startup := Startup.fresh,
    regs := RegFile.put [] A.RESET_CAUSE 0, force := [], tally := [], faults := [], once := [], stamp := 0, now := 0,
    timebase := 0, draws := 0, sched := Sched.fresh, mem := Mem.fresh, eccWindow := 1000, scrub := none, fabric := Fabric.fresh, otp := Otp.fresh,
    loader := Loader.fresh, pixel := Pixel.fresh, terrace := Terrace.fresh, survey := Survey.fresh, front := [],
    islands := List.replicate 6 Island.fresh, layers := [], layersOld := [], supply := Supply.fresh,
    loop := { vcm := Vcm.fresh, waiting := [], reports := [] }, host := HostIf.fresh, egress := Egress.fresh }

/-- A device fresh from the vendor's assembly: no fuse burned. -/
abbrev Fuses.blank : Fuses := { burned := [], weak := [] }

/-- The state right after reset (R659: reset values hold at the exit from RESET_HOLD): a blank EV6050-B that has just
left RESET_HOLD after power-on, with its straps low, in SENSE. -/
def State.reset : State :=
  { pending := [], fuses := Fuses.blank, irqDue := false, chip := (Chip.started 0).leaveReset 0 }

end Sys2Proof.Machine
end

