-- ==== Sys2Proof/WellFormed.lean ====
section
/-!
DEFINITION. WellFormed.lean: the operands each command can bring. A bound is the width of the register field, of the
bus field or of the numbering that the operand comes from; a transfer of the fabric stays within one 64-byte block
(R462, R463), and one to the Plain is a whole line (R414).
-/
namespace Sys2Proof

/-- A transfer of `n` bytes at an offset stays within one 64-byte block, and is a whole line in the Plain (memory 8). -/
def inBlock (mem off n : Nat) : Bool :=
  decide (mem ≤ 9) && decide (off < 2 ^ 32) && decide (0 < n) && decide (off % 64 + n ≤ 64) && (mem != 8 || n == 64)

/-- Source node, virtual channel and tag of a flit (R463, R465). -/
def flitWf (node vc tag : Nat) : Bool := decide (node < 20) && decide (vc < 4) && decide (tag < 1024)

/-- Bits flip in cells of the memories: at most the five check bits of an SRAM byte, a whole symbol elsewhere. -/
def Upset.wf (u : Upset) : Bool := decide (u.key < 10 * 2 ^ 32)

/-- The limits of the safe-voltage points at 200, 400, 600, 800 and 1 000 MHz, in mV (R645). -/
def safeLimits : List (Nat × Nat) := [(520, 570), (580, 630), (640, 690), (700, 760), (770, 820)]

/-- A Vale's safe-voltage points lie within the limits of R645. -/
def safePointsOk (p : List Nat) : Bool :=
  decide (p.length = 5) && (p.zip safeLimits).all fun x => decide (x.2.1 ≤ x.1) && decide (x.1 ≤ x.2.2)

/-- What a self-test can find (R133, R645). -/
def SelftestOutcome.wf (o : SelftestOutcome) : Bool :=
  decide (o.valeFail < 64) && o.slices.all (fun s => decide (s < 2560)) && o.dies.all (fun d => decide (d < 10)) &&
    decide (o.survey < 4) && decide (o.safe.length = 6) && o.safe.all safePointsOk

/-- A key field of a keyed command register is 16 bits. -/
abbrev keyWf (key : Nat) : Bool := decide (key < 65536)

/-- The operands of a command lie in the ranges that its event can bring. -/
def Instr.wf : Instr → Bool
  | .railFall rail => decide (rail < 5)
  | .exitResetHold straps => decide (straps < 8)
  | .fillComplete o => decide (o.locked < 64)
  | .selftestComplete o => o.wf
  | .pllUnlock (.v n) => decide (n < 6)
  | .softReset key | .go key | .stop key | .reload key => keyWf key
  | .slotStart slot => decide (slot < 4096)
  | .unitStart entry | .windowOverrun entry => decide (entry < 16384)
  | .passStart lane | .unitEnd lane _ | .pushRetry lane => decide (lane < 9)
  | .exposureEdge _ (row, ps) => decide (row < 8192) && decide (ps < 1000)
  | .trigEdge (_, ps) => decide (ps < 1000)
  | .surveyResult cs => decide (cs.length = 4)
  | .waveReplay vale _ | .replayStorm vale | .replayStuck vale | .islandAtSafeMv vale => decide (vale < 6)
  | .copy mover | .moverFill mover | .gather mover | .route mover | .combine mover | .place mover
  | .moverReturn mover => decide (mover < 2)
  | .placementDecision layer | .placementSwitch layer => decide (layer < 16)
  | .rdReq node vc tag mem off n us => flitWf node vc tag && inBlock mem off n && us.all Upset.wf
  | .wrReq node vc tag mem off bs => flitWf node vc tag && inBlock mem off bs.length
  | .rdData r | .wrAck r | .qReply r | .resetAbort r => decide (r.dst < 20) && decide (r.src < 20) && decide (r.vc < 4)
  | .qPush node vc tag q el => flitWf node vc tag && decide (q < 65536) && decide (el.length ≤ 64)
  | .qPop node vc tag q => flitWf node vc tag && decide (q < 65536)
  | .dieThreshold dies | .channelLoss dies => dies.all fun d => decide (d < 10)
  | .eccDeclare key die => keyWf key && decide (die < 16)
  | .scrubPlainVisit us | .scrubBasinVisit us | .scrubTVisit us => us.all Upset.wf
  | .scrubGo mem => decide (mem < 2)
  | .resume q | .flush q | .qhPush q | .qhPop q | .qSelWrite q => decide (q < 65536)
  | .vcmTargetWrite ua => decide (-8388608 ≤ ua) && decide (ua < 8388608)
  | .lensCalProg key | .privClear key | .otpAbort key => keyWf key
  | .privCfgWrite t => decide (t < 256)
  | .read a _ | .write a _ => decide (a < 2 ^ 32)
  | .xspiBadCommand op ext => decide (op < 256) && decide (ext < 256)
  | .enec bits | .disec bits => decide (bits < 256)
  | .setdasa x => decide (x.1 < 128) && decide (x.2 < 128)
  | .i3cPrivateWrite x => decide (x.1 < 128)
  | .i3cPrivateRead x => decide (x.1 < 128)
  | .i2cTransfer x _ => decide (x.1 < 128)
  | .entdaa da | .setnewda da => decide (da < 128)
  | .setmwl n | .setmrl n => decide (n < 65536)
  | .unsupportedCcc code => decide (code < 256)
  | .lcCtrl key target => keyWf key && decide (target < 8)
  | .program key region enc => keyWf key && decide (region < 16) && decide (enc < 4)
  | .lockWrite key region | .lockRead key region | .rollbackAdvance key region | .ceilingLower key region
  | .marginScan key region | .reburn key region => keyWf key && decide (region < 16)
  | .fence key vale => keyWf key && decide (vale < 8)
  | .moverReset key mover => keyWf key && decide (mover < 2)
  | .fltActiveClear bits recording => decide (bits < 2 ^ 32) && decide (recording < 2 ^ 32)
  | .clrPeak lane => decide (lane < 7)
  | .terSelWrite group slice => decide (group < 512) && decide (slice < 8)
  | .reqMhzWrite vale mhz => decide (vale < 6) && decide (mhz < 1024)
  | .supplySample mv => decide (mv.length = 6)
  | .supplyConditionEnd bit => decide (bit < 8)
  | .hostBasinWrite off _ => decide (off < 2 ^ 32)
  | .hostPlainWrite off _ => decide (off < 2 ^ 32)
  | .hostWindowRead a _ => decide (a < 2 ^ 32)
  | .registerWrite a _ => decide (a < 2 ^ 32) && decide (a % 4 = 0)
  | .pllUnlock .s | .pllUnlock .t | .pllUnlock .f | .pllUnlock .m | .pllUnlock .c => true
  | .vddaLoss | .aonStart | .powerGood | .nresetLow _ | .xclkCount _ | .otpSenseDone | .pllLockTimeout
  | .secChangeover | .senseEnd | .loadEnd | .drainEnd | .tickEdge _ | .fsyncOutEnd | .fsyncEdge _ _ | .windowMissed
  | .fsyncAbsent | .slaveLost | .strobeCut | .rowTimeStart _ _ | .rotationBoundary _ | .sampleArrival | .srvGo
  | .surveyBusyEnd | .srvFlush | .srvClrCounts | .srvFifoDataRead | .voltageEvaluation | .reg | .regReply
  | .ceWriteBack | .eccWindowEnd | .scrubWriteBack | .scrubAbort | .intervalEnd | .loopApply | .vcmEnable
  | .vcmDisable | .vcmRange _ | .vcmUpdate | .handoverEnd | .vcmTrack | .vcmOvercurrent | .vddvcmLow | .vcmRampEnd
  | .otpPulse _ _ _ | .privSample _ _ | .enter8d | .exit8d | .xspiCsRise | .fetchComplete _ | .fetchExpire _
  | .stretchTimeout | .rstdaa | .getmwl | .getmrl
  | .getpid | .getbcr | .getdcr | .getstatus | .enthdr | .targetReset | .ibiRequest _ | .csiStart | .csiStop
  | .pllCLockTimeout | .csiDeskewDone | .csiPacket | .setNow | .arm | .disarm | .timeLoRead _ | .start | .abort
  | .pushByte _ | .pushTimeout | .flashReadDone _ | .verifyDone | .admitDone | .loadFillDone | .loadCleanupDone
  | .hotSwap | .marginScanDone _ | .fltStopClr | .fltFirstClr | .overrunLogClr | .rtClrCounts
  | .hdrExitPattern => true

/-- A well-formed command. -/
abbrev WellFormed (i : Instr) : Prop := i.wf = true

end Sys2Proof
end

