-- ==== Sys2Proof/Machine/Ops.lean ====
section
/-!
DEFINITION. Machine/Ops.lean: the shared operations of every block: register fields in
place and in force, counters, the fault log, and the changes of device state.
-/
namespace Sys2Proof.Machine

/-! ### Register fields (R10, R16 to R22) -/

/-- The word a register holds. -/
abbrev Chip.word (c : Chip) (a : Nat) : Word := c.regs.word a

/-- A field as last written or as the block set it (R21). -/
abbrev Chip.fld (c : Chip) (f : Fld) : Nat := c.regs.fld f

/-- A one-bit field. -/
def Chip.bit (c : Chip) (f : Fld) : Bool := c.fld f != 0

/-- A field read as a signed number. -/
def Chip.sfld (c : Chip) (f : Fld) : Int := signedOf f.w (c.fld f)

/-- A field in force, for the fields that take effect at the next tick edge (R19). -/
def Chip.live (c : Chip) (f : Fld) : Nat := c.force.fld f

/-- A one-bit field in force. -/
def Chip.liveBit (c : Chip) (f : Fld) : Bool := c.live f != 0

/-- Put a word into a register. -/
def Chip.put (c : Chip) (a : Nat) (v : Word) : Chip := { c with regs := c.regs.put a v }

/-- Put a value into a field. -/
def Chip.set (c : Chip) (f : Fld) (x : Nat) : Chip := { c with regs := c.regs.setFld f x }

/-- Put a flag into a one-bit field. -/
def Chip.setBit (c : Chip) (f : Fld) (b : Bool) : Chip := c.set f b.toNat

/-- Set a one-bit field. -/
def Chip.raise (c : Chip) (f : Fld) : Chip := c.set f 1

/-- Add to a counter that saturates. -/
def Chip.count (c : Chip) (f : Fld) (n : Nat) : Chip := c.set f (satAdd f.w (c.fld f) n)

/-- Add to a counter that wraps. -/
def Chip.countWrap (c : Chip) (f : Fld) (n : Nat) : Chip := c.set f ((c.fld f + n) % 2 ^ f.w)

/-- Addresses of the registers with fields that take effect at the next tick edge. -/
def tickAddrs : List Nat :=
  regRows.flatMap fun r => if r.tick = 0 then [] else
    if r.reps = 1 then (List.range r.cnt).map (fun i => r.addr + 4 * i)
    else (List.range r.reps).map (fun i => r.addr + r.stride * i)

/-- The word that a register held before the host's writes of this TICK cycle, as far as the boundary now taken goes (R20). -/
def Sched.before (s : Sched) (now a : Nat) : Option Word :=
  if s.writtenAt = now then (s.written.find? fun e : Nat × Word => e.1 == a).map (·.2) else none

/-- The word that a tick edge now finds at `a`: a write accepted in the edge's own TICK cycle comes after it (R20). -/
def Chip.wordAtEdge (c : Chip) (a : Nat) : Word := (c.sched.before c.now a).getD (c.regs.word a)

/-- Pending values come into force (R19); a write accepted in the TICK cycle of the boundary waits for the next one (R20, log
entry 100). -/
def Chip.latch (c : Chip) (as : List Nat) : Chip :=
  { c with force := as.foldl (fun f a => f.put a ((c.sched.before c.now a).getD (c.regs.word a))) c.force
           sched := { c.sched with written := [] } }

/-- A host write of the register at `a`, which `f` carries out, with the word before it kept for a boundary in the same TICK cycle
(R20). -/
def Chip.accept (c : Chip) (a : Nat) (f : Chip → Chip) : Chip :=
  if tickAddrs.contains a then
    let kept := if c.sched.writtenAt = c.now then c.sched.written else []
    let kept := if kept.any fun e : Nat × Word => e.1 == a then kept else (a, c.word a) :: kept
    f { c with sched := { c.sched with written := kept, writtenAt := c.now } }
  else f c

/-! ### Per-tick counts (R457 and the registers that show the last completed tick) -/

/-- The key that a field's count stands under. -/
def Fld.key (f : Fld) : Nat := 32 * f.a + f.lo

/-- What has been counted for a field in the tick in progress. -/
def Chip.tallied (c : Chip) (f : Fld) : Nat := Sparse.get (fun _ => 0) c.tally f.key

/-- Count for a field that shows the last completed tick. -/
def Chip.tallyAdd (c : Chip) (f : Fld) (n : Nat) : Chip :=
  { c with tally := Sparse.set (fun _ => 0) c.tally f.key (c.tallied f + n) }

/-- Keep the largest value seen in the tick in progress. -/
def Chip.tallyMax (c : Chip) (f : Fld) (n : Nat) : Chip :=
  { c with tally := Sparse.set (fun _ => 0) c.tally f.key (max (c.tallied f) n) }

/-- The fields take the counts of the tick or interval that ends, saturating; the counts start again from 0. -/
def Chip.showTallies (c : Chip) (fs : List Fld) : Chip :=
  let shown := fs.foldl (fun k f => k.set f (min (2 ^ f.w - 1) (c.tallied f))) c
  { shown with tally := fs.foldl (fun t f => Sparse.set (fun _ => 0) t f.key 0) shown.tally }

/-! ### The fault log (R607 to R611) -/

/-- Slot of the tick in progress; 0xFFFF outside RUN and DEGRADED (R613). -/
def Chip.faultSlot (c : Chip) : Nat := if c.dev.ticking then c.fld F.TICK_STATUS.SLOT else 0xFFFF

/-- Record a fault: fold it into the newest entry or make a new one, set the group's active bit and FLT_FIRST. -/
def Chip.record (c : Chip) (fatal : Bool) (code unit detail : Nat) : Chip :=
  let sev := severityOf fatal code
  let entry : LogEntry :=
    { code := code, unit := unit, severity := sev, repeats := 0, slot := c.faultSlot,
      frame := c.fld F.TICK_FRAME.FRAME, detail := detail, time := c.timebase,
      index := c.fld F.FLT_LOG_HEAD.NEXT, stamp := c.stamp }
  let logged : Chip :=
    match c.faults with
    | e :: es =>
      if e.code = code ∧ e.unit = unit ∧ e.severity = sev ∧ e.stamp = c.stamp then
        { c with faults := { e with repeats := min 255 (e.repeats + 1) } :: es }
      else { c with faults := (entry :: e :: es).take 32 }.countWrap F.FLT_LOG_HEAD.NEXT 1
    | [] => { c with faults := [entry] }.countWrap F.FLT_LOG_HEAD.NEXT 1
  if sev = 0 then logged
  else
    let marked := logged.put A.FLT_ACTIVE (logged.word A.FLT_ACTIVE ||| Word.of (2 ^ (code / 256)))
    if marked.fld F.FLT_FIRST.CODE = 0 then marked.set F.FLT_FIRST.CODE code else marked

/-- Record a fault that does not stop the device. -/
def Chip.alert (c : Chip) (code unit detail : Nat) : Chip := c.record false code unit detail

/-- The UNIT of a fault that concerns no numbered unit (R610). -/
abbrev noUnit : Nat := 0xFFFF

/-- Record a fault at most once per tick. -/
def Chip.alertOnce (c : Chip) (code unit detail : Nat) : Chip :=
  if c.once.contains (code, unit) then c
  else { c with once := (code, unit) :: c.once }.alert code unit detail

/-- A rejected host command (R157, R158). -/
def Chip.reject (c : Chip) : Chip := c.alert Code.CMD_REJECTED noUnit 0

/-! ### Free values -/

/-- Draw a free value: the draw's number, and the chip with the draw counted. -/
def Chip.draw (c : Chip) : Nat × Chip := (c.draws, { c with draws := c.draws + 1 })

/-! ### Interrupt sources (R535) -/

/-- Set an event bit of CSI_EVENTS; a bit that becomes 1 sets HIF_IRQ_STATUS.CSI. -/
def Chip.csiEvent (c : Chip) (f : Fld) : Chip :=
  if c.bit f then c else (c.raise f).raise F.HIF_IRQ_STATUS.CSI

/-- The device changes state (R115); HIF_IRQ_STATUS.STATE follows (R535). -/
def Chip.enter (c : Chip) (d : DevState) : Chip :=
  if c.dev = d then c else { c with dev := d }.raise F.HIF_IRQ_STATUS.STATE

/-! ### Bridge, outputs and lanes on the way out of operation -/

/-- Full scale of a range, in µA (R501). -/
def fullScale (coarse : Bool) : Int := if coarse then 150000 else 60000

/-- Division that rounds to nearest, ties to even. -/
def rne (n : Int) (d : Int) : Int :=
  let q := n / d
  let r := n % d
  if 2 * r < d then q else if d < 2 * r then q + 1 else if q % 2 = 0 then q else q + 1

/-- The stamp of an event that comes `fs` femtoseconds after the present nanosecond: the timebase at its instant, to the nearest
nanosecond, ties to even (R544). -/
def Chip.stampAt (c : Chip) (fs : Nat) : Nat :=
  (rne (Int.ofNat (c.timebase * 1000000 + c.host.timeFrac * 1000 + fs)) 1000000).toNat % 0x10000000000000000

/-- The DAC code for a target in a range (R501). -/
def dacCode (coarse : Bool) (ua : Int) : Int := clampInt (-32768) 32767 (rne (ua * 32768) (fullScale coarse))

/-- The DAC code in force: the ramp's position, to the nearest code (log entry 40). -/
def Vcm.code (v : Vcm) : Int := rne v.pos (fullScale v.coarse)

/-- The target as the driver follows it: VCM_TARGET under the HOST owner, the last applied set's under LOOP (R503). -/
def Chip.vcmTarget (c : Chip) : Int :=
  if c.bit F.LOOP_STATUS.VCM_OWNER then c.loop.vcm.target else c.sfld F.VCM_TARGET.UA

/-- VCM_STATUS and VCM_TARGET_FORCE follow the driver (R516). -/
def Chip.showVcm (c : Chip) : Chip :=
  let v := c.loop.vcm
  let tgt := c.vcmTarget
  let c := c.set F.VCM_STATUS.CODE (patternOf 16 v.code)
  let c := c.setBit F.VCM_STATUS.SUPPLY_OK v.supplyOk
  let c := c.setBit F.VCM_STATUS.HANDOVER v.handover
  let c := c.setBit F.VCM_STATUS.RAMPING
    (match v.bridge with
     | .z | .driving => v.code != dacCode v.coarse tgt
     | .rampOff _ => true)
  let c := c.setBit F.VCM_STATUS.RANGE v.coarse
  let c := c.setBit F.VCM_STATUS.DRIVING (v.bridge != .z)
  c.set F.VCM_TARGET_FORCE.UA (patternOf 24 tgt)

/-- Put a driver state in place. -/
def Chip.setVcm (c : Chip) (v : Vcm) : Chip := { c with loop := { c.loop with vcm := v } }.showVcm

/-- The bridge goes to Z at once for a cause (R502, R506). -/
def Chip.vcmZ (c : Chip) (cause : Nat) : Chip :=
  let v := c.loop.vcm
  let c := if v.bridge = .driving then c.set F.VCM_STATUS.Z_CAUSE cause else c
  c.setVcm { v with bridge := .z, pos := 0, target := 0, handover := false, waiting := false }

/-- A hardware ramp begins (R51, R148): causes 2 and 3. A ramp already running is not changed (R507), and no enable waits
for its end any longer (R52, R148). -/
def Chip.vcmRamp (c : Chip) (cause : Nat) : Chip :=
  let v := c.loop.vcm
  match v.bridge with
  | .driving =>
    (c.set F.VCM_STATUS.Z_CAUSE cause).setVcm { v with bridge := .rampOff cause, handover := false, waiting := false }
  | .rampOff 1 => c.setVcm { v with bridge := .rampOff cause, handover := false, waiting := false }
  | .rampOff _ => c.setVcm { v with waiting := false }
  | .z => c

/-- STROBE falls (R213). -/
def Chip.strobeLow (c : Chip) : Chip := { c with pixel := { c.pixel with strobe := false } }

/-- The CSI-2 outputs stop for a cause other than CSI_CTRL.STOP (R539); what was still to send is dropped. -/
def Chip.csiDown (c : Chip) : Chip :=
  if c.fld F.CSI_STATUS.STATE = 0 then c
  else
    let c := { c with host := { c.host with csi := [] } }
    ((c.set F.CSI_STATUS.STATE 0).setBit F.CLK_STATUS.PLL_C_LOCK false).csiEvent F.CSI_EVENTS.STOPPED

/-- Disarm an armed epoch set (R546). -/
def Chip.disarmEpoch (c : Chip) : Chip := c.setBit F.TIME_STATUS.ARMED false

/-- Registers of a lane's unit in progress (R323, R349, R431): 0 to 5 the Vales, 6 the Saddle, 7 and 8 the Movers. -/
def laneIdle (c : Chip) (lane : Nat) : Chip :=
  if lane < 6 then
    (((c.set (F.VALE_STATUS.ENTRY.vale lane) 0xFFFF).setBit (F.VALE_STATUS.EXACT.vale lane) false).setBit
      (F.VALE_STATUS.WALKING.vale lane) false).setBit (F.VALE_STATUS.BUSY.vale lane) false
  else if lane = 6 then
    ((c.set F.SAD_STATUS.ENTRY 0xFFFF).setBit F.SAD_STATUS.CONTROL false).setBit F.SAD_STATUS.BUSY false
  else
    let m := lane - 7
    (((c.set (F.MOV_STATUS.ENTRY.mov m) 0xFFFF).set (F.MOV_STATUS.OP.mov m) 0).setBit
      (F.MOV_STATUS.DESCENDING.mov m) false).setBit (F.MOV_STATUS.BUSY.mov m) false

/-- Every engine stops at once; nothing of a unit in progress commits after this. -/
def Chip.stopEngines (c : Chip) : Chip :=
  let c := { c with sched := { c.sched with lanes := [], starting := false, drain := false } }
  let c := { c with fabric := { c.fabric with stalled := [] } }
  (List.range 9).foldl laneIdle c

/-- What ends with operation, whatever ended it: engines, tick, STROBE, FSYNC_OUT, exposures, frames in the front
pipeline, an armed epoch. -/
def Chip.endOperation (c : Chip) : Chip :=
  let c := c.stopEngines
  let c := c.strobeLow
  let c := { c with sched := { c.sched with fsyncOut := false }, front := [] }
  let c := { c with pixel := { c.pixel with openLong := 0, openShort := 0 }, terrace := { c.terrace with samples := [] } }
  let c := ((c.setBit F.TICK_STATUS.RUNNING false).set F.TICK_STATUS.SLOT 0).setBit F.PIX_STATUS.ACTIVE false
  let c := c.setBit F.PIX_STATUS.EXPOSED false
  let c := (c.setBit F.DEV_STATE.STOPPING false).setBit F.FR_STATUS.ACTIVE false
  c.disarmEpoch

/-- A triggered scrub pass ends (R456): 1 DONE, 2 ABORTED. -/
def Chip.scrubEnd (c : Chip) (result : Nat) : Chip :=
  match c.scrub with
  | none => c
  | some _ =>
    let c := { c with scrub := none }
    ((c.set F.SCRUB_T_STATUS.BUSY 0).set F.SCRUB_T_STATUS.RESULT result).raise F.SCRUB_EVENTS.DONE

/-- The host's Plain line buffer closes without a write (R418). -/
def Chip.hostLineDrop (c : Chip) : Chip :=
  match c.mem.hostLine with
  | none => c
  | some _ =>
    let c := { c with mem := { c.mem with hostLine := none } }
    let c := (c.put A.HOSTWIN_LINE 0xFFFFFFFF).put A.HOSTWIN_STATUS 0
    c.raise F.MEM_EVENTS.HOST_PARTIAL

/-- A load in progress ends with no further effect (R190), and a ready hot image, which no tick edge can swap in any more, is
dropped. A push has then ended, as R184 says ('for any reason'). -/
def Chip.dropLoad (c : Chip) : Chip :=
  let c := match c.loader.hot with
    | none => c
    | some _ => ({ c with loader := { c.loader with hot := none } }.setBit F.IMG_STATUS.HOT_READY false).put A.IMG_HOT_ID 0
  match c.loader.load with
  | none => c
  | some l =>
    let ended := c.loader.pushEnded || l.source == LoadSource.push
    ({ c with loader := { c.loader with load := none, pushEnded := ended } }.setBit F.IMG_STATUS.BUSY false).set
      F.IMG_STATUS.PHASE 0

/-- Entry to FAULT_STOP on a fatal fault (R115, R615, R616). Before FILL, or again in FAULT_STOP, the event sends the
device nowhere, so R608 makes its recording an ALERT and FLT_STOP stays (log entry 12). -/
def Chip.fatal (c : Chip) (code unit detail : Nat) : Chip :=
  if c.dev.live then
    let c := c.record true code unit detail
    let c := (c.set F.FLT_STOP.CODE code).endOperation
    ((((c.vcmRamp 2).csiDown.scrubEnd 2).hostLineDrop).dropLoad).enter .faultStop
  else c.alert code unit detail

end Sys2Proof.Machine
end

