-- ==== Sys2Proof/Machine/Float.lean ====
section
/-!
DEFINITION. Machine/Float.lean: binary floating point as the front pipeline (R264) and the engines (R293, R294) use it.
A finite number is kept exactly, as sign, magnitude and power of two, and each operation rounds its exact result once.
-/
namespace Sys2Proof.Machine

/-- An exact binary number: ±mag · 2^ex. -/
structure Fp where
  neg : Bool
  mag : Nat
  ex : Int
  deriving DecidableEq, Repr

namespace Fp

/-- The integer `i`. -/
def ofInt (i : Int) : Fp := ⟨decide (i < 0), i.natAbs, 0⟩

/-- The number `i · 2^e`. -/
def scaled (i e : Int) : Fp := ⟨decide (i < 0), i.natAbs, e⟩

/-- Positive zero. -/
abbrev zero : Fp := ⟨false, 0, 0⟩

/-- Magnitude at a smaller exponent. -/
def at_ (x : Fp) (e : Int) : Nat := x.mag * 2 ^ (x.ex - e).toNat

/-- Signed magnitude at a smaller exponent. -/
def signedAt (x : Fp) (e : Int) : Int := if x.neg then - Int.ofNat (x.at_ e) else Int.ofNat (x.at_ e)

/-- Negation. -/
def opp (x : Fp) : Fp := { x with neg := !x.neg }

/-- Absolute value. -/
def abs (x : Fp) : Fp := { x with neg := false }

/-- Exact sum. A zero sum is +0 unless both operands are negative zeros. -/
def add (x y : Fp) : Fp :=
  if x.mag = 0 ∧ y.mag = 0 then ⟨x.neg && y.neg, 0, 0⟩
  else
    let e := min x.ex y.ex
    scaled (x.signedAt e + y.signedAt e) e

/-- Exact difference. -/
def sub (x y : Fp) : Fp := x.add y.opp

/-- Exact product. -/
def mul (x y : Fp) : Fp := ⟨xor x.neg y.neg, x.mag * y.mag, x.ex + y.ex⟩

/-- Strictly below. -/
def lt (x y : Fp) : Bool :=
  let e := min x.ex y.ex
  decide (x.signedAt e < y.signedAt e)

/-- At most. -/
def le (x y : Fp) : Bool := !(y.lt x)

/-- Multiply by a power of two. -/
def shift (x : Fp) (k : Int) : Fp := { x with ex := x.ex + k }

/-- The quotient to 64 bits or more, with a last bit that says whether it is inexact, so that any narrower rounding of it
rounds the exact quotient. -/
def div (x y : Fp) : Fp :=
  let k := 64 + Nat.log2 (y.mag + 1) + 1
  let n := x.mag * 2 ^ k
  let q := n / y.mag
  ⟨xor x.neg y.neg, 2 * q + (if n % y.mag = 0 then 0 else 1), x.ex - y.ex - Int.ofNat k - 1⟩

/-- Integer square root, bit by bit from bit `n − 1` down. -/
def isqrt (v : Nat) : Nat → Nat → Nat
  | 0, r => r
  | n + 1, r => if (r + 2 ^ n) * (r + 2 ^ n) ≤ v then isqrt v n (r + 2 ^ n) else isqrt v n r

/-- The square root to 60 bits or more, with a last bit that says whether it is inexact. -/
def sqrt (x : Fp) : Fp :=
  let m := if x.ex % 2 = 0 then x.mag else 2 * x.mag
  let e := if x.ex % 2 = 0 then x.ex else x.ex - 1
  let n := m * 2 ^ 120
  let r := isqrt n (Nat.log2 n / 2 + 1) 0
  ⟨x.neg, 2 * r + (if r * r = n then 0 else 1), (e - 120) / 2 - 1⟩

/-- Round to an integer, ties to even. -/
def toInt (x : Fp) : Int :=
  let m : Int := Int.ofNat x.mag
  let s := if 0 ≤ x.ex then m * 2 ^ x.ex.toNat else rne m (2 ^ (-x.ex).toNat)
  if x.neg then -s else s

/-- The largest integer at most the number. -/
def floor (x : Fp) : Int :=
  let m : Int := if x.neg then - Int.ofNat x.mag else Int.ofNat x.mag
  if 0 ≤ x.ex then m * 2 ^ x.ex.toNat else m / 2 ^ (-x.ex).toNat

/-- Power of two of the leading bit; 0 for zero. -/
def lead (x : Fp) : Int := if x.mag = 0 then 0 else x.ex + Int.ofNat (Nat.log2 x.mag)

/-- Round to `p` significant bits with quanta no smaller than 2^qmin: count of quanta and the quantum's exponent. -/
def quanta (x : Fp) (p : Nat) (qmin : Int) : Nat × Int :=
  let q := max (x.lead - Int.ofNat p + 1) qmin
  if q ≤ x.ex then (x.at_ q, q) else ((rne (Int.ofNat x.mag) (2 ^ (q - x.ex).toNat)).toNat, q)

end Fp

/-! ### binary32 -/

/-- Bits of the largest finite magnitude. -/
abbrev fltMax : Nat := 0x7F7FFFFF

/-- binary32 of a number (R264): nearest even, gradual underflow, saturating. -/
def f32 (x : Fp) : Nat :=
  let s := if x.neg then 0x80000000 else 0
  if x.mag = 0 then s
  else
    let (n, q) := x.quanta 24 (-149)
    s + min fltMax ((q + 149).toNat * 0x800000 + n)

/-- binary32 of an engine's result (R294): a magnitude below 2^−126 becomes zero. -/
def f32z (x : Fp) : Nat :=
  if x.mag ≠ 0 ∧ x.lead < -126 then (if x.neg then 0x80000000 else 0) else f32 x

/-- The number that finite binary32 bits hold. -/
def ofF32 (b : Nat) : Fp :=
  let e := b / 0x800000 % 256
  let f := b % 0x800000
  if e = 0 then ⟨b.testBit 31, f, -149⟩ else ⟨b.testBit 31, f + 0x800000, Int.ofNat e - 150⟩

/-- The number an engine takes for binary32 input bits (R294), and whether they were a NaN. -/
def engineIn (b : Nat) : Nat × Bool :=
  let e := b / 0x800000 % 256
  let s := b / 0x80000000 % 2 * 0x80000000
  if e = 0 then (s, false)
  else if e = 255 then (if b % 0x800000 = 0 then (s + fltMax, false) else (0, true))
  else (b % 0x100000000, false)

namespace F32

/-- Front-pipeline operations on binary32 bits (R264). -/
def add (a b : Nat) : Nat := f32 ((ofF32 a).add (ofF32 b))
def sub (a b : Nat) : Nat := f32 ((ofF32 a).sub (ofF32 b))
def mul (a b : Nat) : Nat := f32 ((ofF32 a).mul (ofF32 b))
def div (a b : Nat) : Nat := f32 ((ofF32 a).div (ofF32 b))
def sqrt (a : Nat) : Nat := f32 (ofF32 a).sqrt
def ofInt (i : Int) : Nat := f32 (Fp.ofInt i)
def lt (a b : Nat) : Bool := (ofF32 a).lt (ofF32 b)
def le (a b : Nat) : Bool := (ofF32 a).le (ofF32 b)
def max (a b : Nat) : Nat := if lt a b then b else a
def min (a b : Nat) : Nat := if lt b a then b else a
def abs (a : Nat) : Nat := a % 0x80000000
def neg (a : Nat) : Nat := Nat.xor a 0x80000000

/-- Hold a number between 0 and 1. -/
def unit (a : Nat) : Nat := min 0x3F800000 (max 0 a)

/-- Sum of a list from its first element on, one rounding per addition. -/
def sum (xs : List Nat) : Nat :=
  match xs with
  | [] => 0
  | x :: xs => xs.foldl add x

/-- Mean of a list: the sum divided by the count. -/
def mean (xs : List Nat) : Nat := div (sum xs) (ofInt (Int.ofNat xs.length))

end F32

namespace FE

/-- Engine operations on binary32 bits (R294); inputs have passed `engineIn`. -/
def add (a b : Nat) : Nat := f32z ((ofF32 a).add (ofF32 b))
def sub (a b : Nat) : Nat := f32z ((ofF32 a).sub (ofF32 b))
def mul (a b : Nat) : Nat := f32z ((ofF32 a).mul (ofF32 b))
def fma (a b c : Nat) : Nat := f32z (((ofF32 a).mul (ofF32 b)).add (ofF32 c))
/-- A fused multiply-add whose second factor is an exact number (φ of R302). -/
def fmaExact (a : Nat) (x : Fp) (c : Nat) : Nat := f32z (((ofF32 a).mul x).add (ofF32 c))
def ofInt (i : Int) : Nat := f32z (Fp.ofInt i)
def neg (a : Nat) : Nat := Nat.xor a 0x80000000
def lt (a b : Nat) : Bool := (ofF32 a).lt (ofF32 b)
def isZero (a : Nat) : Bool := a % 0x80000000 == 0

/-- MIN and MAX; of equal operands the first (R300). -/
def min (a b : Nat) : Nat := if lt b a then b else a
def max (a b : Nat) : Nat := if lt a b then b else a

/-- RCP: ±0 gives ±FLT_MAX. -/
def rcp (a : Nat) : Nat := if isZero a then a / 0x80000000 * 0x80000000 + fltMax else f32z ((Fp.ofInt 1).div (ofF32 a))

/-- SQRT: a ≤ 0 gives +0.0. -/
def sqrt (a : Nat) : Nat := if isZero a || a.testBit 31 then 0 else f32z (ofF32 a).sqrt

/-- RSQRT: a ≤ 0 gives FLT_MAX. -/
def rsqrt (a : Nat) : Nat := if isZero a || a.testBit 31 then fltMax else rcp (sqrt a)

end FE

/-! ### Tables of correctly rounded values -/

/-- The largest `n` with `n^q ≤ v`, bit by bit from bit `k − 1` down. -/
def rootBits (q v : Nat) : Nat → Nat → Nat
  | 0, r => r
  | k + 1, r => if (r + 2 ^ k) ^ q ≤ v then rootBits q v k (r + 2 ^ k) else rootBits q v k r

/-- 2^(p/q) for 0 ≤ p ≤ q, times 2^s and rounded to the nearest integer; no tie arises. -/
def pow2Scaled (p q s : Nat) : Nat :=
  let n := rootBits q (2 ^ (s * q + p)) (s + 2) 0
  if (2 * n + 1) ^ q < 2 ^ ((s + 1) * q + p) then n + 1 else n

/-- binary32 of 2^(p/q) · 2^k, for 0 ≤ p < q. -/
def pow2F32 (p q : Nat) (k : Int) : Nat := f32z ⟨false, pow2Scaled p q 23, k - 23⟩

/-- T[j] of R302. -/
def expTable (j : Nat) : Nat := if j = 1024 then 0x40000000 else pow2F32 j 1024 0

/-- `n` bits of log2 of `x`/2^160, for 1 ≤ x/2^160 < 2. -/
def log2Bits : Nat → Nat → Nat → Nat
  | 0, _, acc => acc
  | n + 1, x, acc =>
    let y := x * x / 2 ^ 160
    if 2 ^ 161 ≤ y then log2Bits n (y / 2) (2 * acc + 1) else log2Bits n y (2 * acc)

/-- L[j] of R302: log2(1 + j/1024) to 64 bits, then to binary32. -/
def logTable (j : Nat) : Nat :=
  if j = 0 then 0 else if j = 1024 then 0x3F800000
  else f32z ⟨false, 2 * log2Bits 64 ((1024 + j) * 2 ^ 150) 0 + 1, -65⟩

namespace FE

/-- EXP of R302. -/
def exp (a : Nat) : Nat :=
  let t := ofF32 (mul a 0x3FB8AA3B)
  if t.lt (Fp.ofInt (-126)) then 0
  else if t.lt (Fp.ofInt 128) = false then fltMax
  else
    let i := t.floor
    let u := (t.sub (Fp.ofInt i)).shift 10
    let j := u.floor
    let r := fmaExact (sub (expTable (j.toNat + 1)) (expTable j.toNat)) (u.sub (Fp.ofInt j)) (expTable j.toNat)
    f32z ((ofF32 r).shift i)

/-- LOG2 of R302. -/
def log2 (a : Nat) : Nat :=
  if isZero a || a.testBit 31 then 0xC2FC0000
  else
    let e := (ofF32 a).lead
    let u := (((ofF32 a).shift (-e)).sub (Fp.ofInt 1)).shift 10
    let j := u.floor.toNat
    let r := fmaExact (sub (logTable (j + 1)) (logTable j)) (u.sub (Fp.ofInt (Int.ofNat j))) (logTable j)
    f32z ((Fp.ofInt e).add (ofF32 r))

/-- SIGMOID. -/
def sigmoid (a : Nat) : Nat := rcp (add 0x3F800000 (exp (neg a)))

end FE

/-! ### binary16, LOG10 and integer formats -/

/-- binary16 of a number: nearest even, gradual underflow, saturating at ±65 504 (R264, R294). -/
def f16 (x : Fp) : Nat :=
  let s := if x.neg then 0x8000 else 0
  if x.mag = 0 then s
  else
    let (n, q) := x.quanta 11 (-24)
    s + min 0x7BFF ((q + 24).toNat * 0x400 + n)

/-- binary32 that an engine takes for binary16 bits, and whether they were a NaN. -/
def f16In (h : Nat) : Nat × Bool :=
  let e := h / 0x400 % 32
  let f := h % 0x400
  let s := h / 0x8000 % 2 * 0x80000000
  if e = 31 then (if f = 0 then (s + fltMax, false) else (0, true))
  else if e = 0 then (f32 ⟨h.testBit 15, f, -24⟩, false)
  else (f32 ⟨h.testBit 15, f + 0x400, Int.ofNat e - 25⟩, false)

/-- binary32 nearest 2^(w/64 − 8), of a LOG10 element (R294). -/
def log10In (w : Nat) : Nat := pow2F32 (w % 64) 64 (Int.ofNat (w / 64) - 8)

/-- 64 · log2 of a positive number, rounded to nearest. A tie cannot arise: 128 · log2 of a dyadic is an integer only for a
power of two, where it is even. -/
def log2x64 (x : Fp) : Int :=
  let k := Int.ofNat (Nat.log2 (x.mag ^ 128)) + 128 * x.ex
  (k + 1) / 2

/-- The LOG10 code of a value (R285). -/
def log10Code (x : Fp) : Nat :=
  let least : Fp := ⟨false, 1, -8⟩
  let x := if x.lt least then least else x
  (clampInt 0 1023 (log2x64 x + 512)).toNat

/-- Round to nearest, then saturate to an integer format of `w` bits (R294). -/
def intFormat (w : Nat) (x : Fp) : Int := clampInt (-(2 ^ (w - 1))) (2 ^ (w - 1) - 1) x.toInt

/-! ### Twiddles (R305) -/

/-- The cosine of half an angle from its cosine, in units of 2^−128. -/
def halfCos (c : Nat) : Nat :=
  let v := (2 ^ 128 + c) * 2 ^ 127
  Fp.isqrt v 130 0

/-- cos and sin of 2π/256 in units of 2^−128, by halving π/2 six times. -/
def baseAngle : Nat × Nat :=
  let c := halfCos (halfCos (halfCos (halfCos (halfCos (halfCos 0)))))
  (c, Fp.isqrt (2 ^ 256 - c * c) 130 0)

/-- cos and sin of `k` · 2π/256 for k up to 32, in units of 2^−128. -/
def turn : Nat → Nat × Nat
  | 0 => (2 ^ 128, 0)
  | k + 1 =>
    let (c, s) := turn k
    let (bc, bs) := baseAngle
    ((c * bc - s * bs) / 2 ^ 128, (s * bc + c * bs) / 2 ^ 128)

/-- cos of `k` · 2π/256, signed, by reduction to the first octant. -/
def cosOf (k : Nat) : Fp :=
  let k := k % 256
  let h := if k ≤ 128 then k else 256 - k
  let neg := decide (64 < h)
  let q := if 64 < h then 128 - h else h
  let m := if q ≤ 32 then (turn q).1 else (turn (64 - q)).2
  if m = 0 then Fp.zero else ⟨neg, m, -128⟩

/-- sin of `k` · 2π/256. -/
def sinOf (k : Nat) : Fp := cosOf (k + 192)

end Sys2Proof.Machine
end

