-- ==== Sys2Proof/Machine/Codec.lean ====
section
/-!
DEFINITION. Machine/Codec.lean: the check codes of the memories and of the image and OTP formats: the per-byte SEC-DED
code (R433 to R436), the RS(10,8) code of the Plain (R438 to R443) and CRC-32 (R582).
-/
namespace Sys2Proof.Machine

/-! ### The per-byte code -/

/-- Exclusive or of chosen bits of a value. -/
def parityOf (v : Nat) (bits : List Nat) : Bool := bits.foldl (fun a i => xor a (v.testBit i)) false

/-- The five check bits of a byte (R433). -/
def secBits (d : Byte) : Nat :=
  let v := d.toNat
  let c0 := parityOf v [0, 1, 3, 4, 6]
  let c1 := parityOf v [0, 2, 3, 5, 6]
  let c2 := parityOf v [1, 2, 3, 7]
  let c3 := parityOf v [4, 5, 6, 7]
  let c4 := xor (xor (xor (parityOf v [0, 1, 2, 3, 4, 5, 6, 7]) c0) (xor c1 c2)) c3
  c0.toNat + 2 * c1.toNat + 4 * c2.toNat + 8 * c3.toNat + 16 * c4.toNat

/-- The check bits a byte is written with: the computed ones, or those of a poisoned byte (R436). -/
def secEncode (d : Byte) (poisoned : Bool) : Byte :=
  Byte.of (if poisoned then Nat.xor (secBits d) 0x0F else secBits d)

/-- The outcome of decoding one codeword. -/
inductive Decoded where
  | clean | corrected | uncorrectable
  deriving DecidableEq, Repr

/-- The data bit that a syndrome's low four bits name, if it is a data column of R434. -/
def secColumn : Nat → Option Nat
  | 0x3 => some 0 | 0x5 => some 1 | 0x6 => some 2 | 0x7 => some 3
  | 0x9 => some 4 | 0xA => some 5 | 0xB => some 6 | 0xC => some 7
  | _ => none

/-- The syndrome of a stored byte (R434): s3 to s0 against the check bits of its data, s4 the XOR of all 13 stored bits. -/
def secSyndrome (d chk : Byte) : Nat :=
  let s4 := xor (parityOf d.toNat [0, 1, 2, 3, 4, 5, 6, 7]) (parityOf chk.toNat [0, 1, 2, 3, 4])
  Nat.xor (secBits d % 16) (chk.toNat % 16) + 16 * s4.toNat

/-- Decode a stored byte (R434, R435). -/
def secDecode (d chk : Byte) : Byte × Decoded :=
  let s := secSyndrome d chk
  if s = 0 then (d, .clean)
  else if s < 16 then (d, .uncorrectable)
  else if 0xD ≤ s % 16 then (d, .uncorrectable)
  else match secColumn (s % 16) with
    | some i => (d ^^^ Byte.of (2 ^ i), .corrected)
    | none => (d, .corrected)

/-! ### The Plain code -/

/-- Multiply a field element by α in GF(2^8) over 0x11D (R438). -/
def gfTwice (a : Byte) : Byte :=
  if a.toNat < 128 then Byte.of (2 * a.toNat) else Byte.of (Nat.xor (2 * a.toNat) 0x11D)

/-- Multiply by α^k. -/
def gfShift : Nat → Byte → Byte
  | 0, a => a
  | k + 1, a => gfShift k (gfTwice a)

/-- The two check symbols (M8, M9) of eight data symbols, c9 first (R438). -/
def rsEncode (ds : List Byte) : Byte × Byte :=
  ds.foldl (fun r d => let fb := d ^^^ r.1; (r.2 ^^^ gfTwice fb ^^^ fb, gfTwice fb)) (0, 0)

/-- The syndromes S0 and S1 of ten received symbols, M0's first (R440). -/
def rsSyndromes (ss : List Byte) : Byte × Byte :=
  ss.foldl (fun r d => (r.1 ^^^ d, gfTwice r.2 ^^^ d)) (0, 0)

/-- The position k from 0 to 9 with S1 = S0·α^k, if there is one. -/
def rsLocate (s0 s1 : Byte) : Option Nat := (List.range 10).find? fun k => gfShift k s0 = s1

/-- A decoded codeword: its eight data symbols, the outcome and the die a correction is attributed to. -/
structure RsResult where
  syms : List Byte
  outcome : Decoded
  die : Nat
  deriving DecidableEq, Repr

/-- Exclusive-or a value into the symbol of die `d` of ten symbols. -/
def rsFix (ss : List Byte) (d : Nat) (e : Byte) : List Byte :=
  ss.mapIdx fun i b => if i = d then b ^^^ e else b

/-- Decode ten symbols with no die declared lost (R440), or with die `l` declared lost (R442). -/
def rsDecode (lost : Option Nat) (ss : List Byte) : RsResult :=
  match lost with
  | none =>
    let (s0, s1) := rsSyndromes ss
    if s0 = 0 then
      if s1 = 0 then ⟨ss.take 8, .clean, 0xF⟩ else ⟨ss.take 8, .uncorrectable, 0xF⟩
    else match rsLocate s0 s1 with
      | some k => ⟨(rsFix ss (9 - k) s0).take 8, .corrected, 9 - k⟩
      | none => ⟨ss.take 8, .uncorrectable, 0xF⟩
  | some l =>
    let z := ss.mapIdx fun i b => if i = l then 0 else b
    let (s0, s1) := rsSyndromes z
    if gfShift (9 - l) s0 = s1 then ⟨(rsFix z l s0).take 8, .clean, 0xF⟩
    else ⟨z.take 8, .uncorrectable, 0xF⟩

/-! ### CRC-32 -/

/-- One bit of the reflected CRC-32 with polynomial 0xEDB8_8320. -/
def crcBit (r : Nat) : Nat := if r % 2 = 1 then Nat.xor (r / 2) 0xEDB88320 else r / 2

/-- One byte of CRC-32. -/
def crcByte (r : Nat) (b : Byte) : Nat :=
  crcBit (crcBit (crcBit (crcBit (crcBit (crcBit (crcBit (crcBit (Nat.xor r b.toNat))))))))

/-- CRC-32 of a byte string (IEEE 802.3: reflected, initial and final 0xFFFF_FFFF). -/
def crc32 (bs : List Byte) : Nat := Nat.xor (bs.foldl crcByte 0xFFFFFFFF) 0xFFFFFFFF

/-! ### CSI-2 packets (R540), log entry 116 -/

/-- One bit of the reflected CRC-16 with polynomial 0x8408. -/
def crc16Bit (r : Nat) : Nat := if r % 2 = 1 then Nat.xor (r / 2) 0x8408 else r / 2

/-- One byte of CRC-16. -/
def crc16Byte (r : Nat) (b : Byte) : Nat :=
  crc16Bit (crc16Bit (crc16Bit (crc16Bit (crc16Bit (crc16Bit (crc16Bit (crc16Bit (Nat.xor r b.toNat))))))))

/-- CRC-16 of a long packet's payload (x¹⁶ + x¹² + x⁵ + 1, least significant bit first, initial 0xFFFF). -/
def crc16 (bs : List Byte) : Nat := bs.foldl crc16Byte 0xFFFF

/-- Header bits that enter each parity bit of a packet header's ECC. -/
def headerEccRows : List (List Nat) := [
  [0, 1, 2, 4, 5, 7, 10, 11, 13, 16, 20, 21, 22, 23],
  [0, 1, 3, 4, 6, 8, 10, 12, 14, 17, 20, 21, 22, 23],
  [0, 2, 3, 5, 6, 9, 11, 12, 15, 18, 20, 21, 22],
  [1, 2, 3, 7, 8, 9, 13, 14, 15, 19, 20, 21, 23],
  [4, 5, 6, 7, 8, 9, 16, 17, 18, 19, 20, 22, 23],
  [10, 11, 12, 13, 14, 15, 16, 17, 18, 19, 21, 22, 23]]

/-- ECC of the three header bytes before it, as a number; the virtual-channel extension bits above it are 0. -/
def headerEcc (v : Nat) : Nat := (headerEccRows.zipIdx.map fun r => (parityOf v r.1).toNat * 2 ^ r.2).foldl (· + ·) 0

end Sys2Proof.Machine
end

