-- ==== Sys2Proof/Machine/Memory.lean ====
section
/-!
DEFINITION. Machine/Memory.lean: reads and writes of the memories of R405, their error correction (R433 to R443), poison
(R447, R448), the line map (R415, R416), the error counters (R450, R457, R458) and the loss of a Plain die (R444 to R446).
-/
namespace Sys2Proof.Machine

/-! ### Cells -/

/-- Bytes of each memory: Basins, Saddle pool, six Vale pools, Plain, both Glance buffers (R405, R421, R459). -/
def memSize : Nat → Nat
  | 0 => 0x3000000
  | 1 => 0x100000
  | 8 => 0x40000000
  | 9 => 0x4000
  | n => if n < 8 then 0x200000 else 0

/-- Key of a byte: memory code and offset. -/
def memKey (mem off : Nat) : Nat := mem * 0x100000000 + off

/-- What an unlisted cell holds: 0 (FILL zeroes every SRAM; for the Plain log entry 6). -/
def cellDefault : Nat → Byte := fun _ => 0

/-- The data bits of a byte, or a data symbol of the Plain. -/
def Mem.byte (m : Mem) (k : Nat) : Byte := Sparse.get cellDefault m.data k

/-- The check bits of a byte, or a check symbol of the Plain. -/
def Mem.check (m : Mem) (k : Nat) : Byte := Sparse.get cellDefault m.chk k

/-- Write a data cell. -/
def Mem.setByte (m : Mem) (k : Nat) (v : Byte) : Mem := { m with data := Sparse.set cellDefault m.data k v }

/-- Write a check cell. -/
def Mem.setCheck (m : Mem) (k : Nat) (v : Byte) : Mem := { m with chk := Sparse.set cellDefault m.chk k v }

/-- Key of the two check symbols of codeword `j` of line `a`. -/
def checkKey (a j : Nat) : Nat := memKey 8 (16 * a + 2 * j)

/-- The bit of the line map for line `a` (R415). -/
def Mem.mapped (m : Mem) (a : Nat) : Bool := Sparse.get (fun _ => false) m.lines a

/-- Set or clear a bit of the line map. -/
def Mem.setMapped (m : Mem) (a : Nat) (b : Bool) : Mem := { m with lines := Sparse.set (fun _ => false) m.lines a b }

/-- The memory is in its canonical form: every cell list is. -/
def Mem.wf (m : Mem) : Bool :=
  Sparse.wf cellDefault m.data && Sparse.wf cellDefault m.chk && Sparse.wf (fun _ => false) m.lines

/-- Bits flip in a cell, as an upset does. -/
def Mem.flip (m : Mem) (u : Upset) : Mem :=
  if u.inChk then m.setCheck u.key (m.check u.key ^^^ u.mask) else m.setByte u.key (m.byte u.key ^^^ u.mask)

/-- Upsets strike the memories. -/
def Chip.upset (c : Chip) (us : List Upset) : Chip := { c with mem := us.foldl Mem.flip c.mem }

/-! ### SRAM: Basins, pools and the Glance shadow -/

/-- Store one byte with its check bits (R433, R436); a write-back of that byte still waiting is cancelled (R437). -/
def Mem.storeByte (m : Mem) (k : Nat) (b : MByte) : Mem :=
  let m := (m.setByte k b.v).setCheck k (secEncode b.v b.p)
  { m with writeBack := m.writeBack.filter (fun w => w.1 != k) }

/-- Store bytes at ascending keys. -/
def Mem.storeBytes (m : Mem) (k : Nat) : List MByte → Mem
  | [] => m
  | b :: bs => (m.storeByte k b).storeBytes (k + 1) bs

/-- The byte a reader gets, and how it decoded (R434, R435). -/
def Mem.loadByte (m : Mem) (k : Nat) : MByte × Decoded :=
  let r := secDecode (m.byte k) (m.check k)
  (⟨r.1, r.2 = .uncorrectable⟩, r.2)

/-- The threshold of R458 for a count that has just risen: the event and the fault come once per tick. -/
def Chip.ceRate (c : Chip) (count threshold : Fld) (code : Nat) : Chip :=
  if c.live threshold ≠ 0 ∧ c.live threshold ≤ c.tallied count ∧ (code, noUnit) ∉ c.once then
    (c.raise F.ECC_EVENTS.CE_RATE).alertOnce code noUnit 0
  else c

/-- A correctable SRAM byte: counted, logged, queued for its write-back (R437, R457, R458). -/
def Chip.sramCe (c : Chip) (k : Nat) (v : Byte) : Chip :=
  let c := { c with mem := { c.mem with writeBack := c.mem.writeBack ++ [(k, v)] } }
  let c := (c.tallyAdd F.ECC_SRAM_COUNT.CE 1).raise F.ECC_EVENTS.CE
  let c := ((c.set F.ECC_SRAM_LOG.VALID 1).set F.ECC_SRAM_LOG.MEM (k / 0x100000000)).set F.ECC_SRAM_LOG.UE 0
  let c := c.set F.ECC_SRAM_LOG.OFFSET (k % 0x100000000)
  c.ceRate F.ECC_SRAM_COUNT.CE F.ECC_THRESH.SRAM_CE Code.SRAM_CE_RATE

/-- An uncorrectable SRAM byte: counted and logged (R450); the fault is recorded unless the reader is exempt. -/
def Chip.sramUe (c : Chip) (k : Nat) (fault : Bool) : Chip :=
  let c := (c.tallyAdd F.ECC_SRAM_COUNT.UE 1).raise F.ECC_EVENTS.SRAM_UE
  let c := ((c.set F.ECC_SRAM_LOG.VALID 1).set F.ECC_SRAM_LOG.MEM (k / 0x100000000)).set F.ECC_SRAM_LOG.UE 1
  let c := c.set F.ECC_SRAM_LOG.OFFSET (k % 0x100000000)
  if fault then c.alertOnce Code.SRAM_UE noUnit 0 else c

/-- Read SRAM bytes at ascending keys, with check decoding. -/
def Chip.sramRead (fault : Bool) : Nat → Nat → Chip → List MByte × Chip
  | _, 0, c => ([], c)
  | k, n + 1, c =>
    let r := c.mem.loadByte k
    let c := match r.2 with
      | .clean => c
      | .corrected => c.sramCe k r.1.v
      | .uncorrectable => c.sramUe k fault
    let (bs, c) := Chip.sramRead fault (k + 1) n c
    (r.1 :: bs, c)

/-! ### The Plain -/

/-- Who reads the Plain: what a never-written line and a UE record depends on it (R416, R418, R453). -/
inductive PlainReader where
  | engine | host | scrub
  deriving DecidableEq, Repr

/-- The lost die, if one is declared lost (R445). -/
def Chip.lostDie (c : Chip) : Option Nat :=
  if c.fld F.ECC_STATUS.LOST_DIE = 0xF then none else some (c.fld F.ECC_STATUS.LOST_DIE)

/-- The ten symbols of codeword `j` of line `a`, M0 first (R439). -/
def Mem.codeword (m : Mem) (a j : Nat) : List Byte :=
  (List.range 8).map (fun d => m.byte (memKey 8 (64 * a + 8 * j + d))) ++
    [m.check (checkKey a j), m.check (checkKey a j + 1)]

/-- The decoded codewords of a line, first to last. -/
def Mem.lineDecode (m : Mem) (lost : Option Nat) (a : Nat) : List RsResult :=
  (List.range 8).map fun j => rsDecode lost (m.codeword a j)

/-- Write one codeword; the symbol of a lost die is discarded (R445). -/
def Mem.storeCodeword (m : Mem) (lost : Option Nat) (a j : Nat) (ds : List Byte) : Mem :=
  let e := rsEncode ds
  let m := (ds.zipIdx).foldl (fun m d => if lost = some d.2 then m else m.setByte (memKey 8 (64 * a + 8 * j + d.2)) d.1) m
  let m := if lost = some 8 then m else m.setCheck (checkKey a j) e.1
  if lost = some 9 then m else m.setCheck (checkKey a j + 1) e.2

/-- Write the eight codewords of a line; a scrub write-back of that line still waiting is cancelled (R453). -/
def Mem.storeLine (m : Mem) (lost : Option Nat) (a : Nat) (bs : List Byte) : Mem :=
  let m := (List.range 8).foldl (fun m j => m.storeCodeword lost a j ((bs.drop (8 * j)).take 8)) m
  { m with scrubBack := m.scrubBack.filter (fun w => w.1 != a) }

/-- Write a whole Plain line (R411, R415, R448). -/
def Chip.plainWriteLine (c : Chip) (a : Nat) (bs : List MByte) : Chip :=
  let c := { c with mem := c.mem.storeLine c.lostDie a (bs.map fun b : MByte => b.v) }
  let c := c.tallyAdd F.PLAIN_WR_LINES.LINES 1
  if (bs.any fun b : MByte => b.p) then
    let c := { c with mem := c.mem.setMapped a false }
    let c := (c.tallyAdd F.ECC_POISON_WR.VALUE 1).set F.ECC_POISON_ADDR.VALUE (64 * a)
    (c.raise F.ECC_EVENTS.POISON_PLAIN_WR).alertOnce Code.POISON_PLAIN_WR noUnit 0
  else { c with mem := c.mem.setMapped a true }

/-- A line read that met a correctable codeword: counted once a line, attributed once a codeword (R440, R457). -/
def Chip.plainCe (c : Chip) (a : Nat) (dies : List Nat) : Chip :=
  let c := (c.tallyAdd F.ECC_PLAIN_COUNT.CE 1).raise F.ECC_EVENTS.CE
  let c := dies.foldl (fun c d => c.count (F.ECC_DIE_CE.CURRENT.el d) 1) c
  let c := (c.set F.ECC_PLAIN_LOG.VALID 1).set F.ECC_PLAIN_LOG.UE 0
  let c := (c.set F.ECC_PLAIN_LOG.DIE (dies.getLastD 0xF)).set F.ECC_PLAIN_LOG.LINE a
  c.ceRate F.ECC_PLAIN_COUNT.CE F.ECC_THRESH.PLAIN_CE Code.PLAIN_CE_RATE

/-- A line read that met an uncorrectable codeword: counted once a line, logged (R450). -/
def Chip.plainUe (c : Chip) (a : Nat) (fault : Bool) : Chip :=
  let c := (c.tallyAdd F.ECC_PLAIN_COUNT.UE 1).raise F.ECC_EVENTS.PLAIN_UE
  let c := (c.set F.ECC_PLAIN_LOG.VALID 1).set F.ECC_PLAIN_LOG.UE 1
  let c := (c.set F.ECC_PLAIN_LOG.DIE 0xF).set F.ECC_PLAIN_LOG.LINE a
  if fault then c.alertOnce Code.PLAIN_UE noUnit 0 else c

/-- A little-endian value of `n` bytes at an offset of a byte string. -/
def leAt (bs : List Byte) (off n : Nat) : Nat := leNat ((bs.drop off).take n)

/-- Plain regions that an image declares, as (BASE, SIZE) (R168). -/
def Image.regionSpans (im : Image) : List (Nat × Nat) :=
  match im.sections.find? fun s => s.ty == 12 with
  | none => []
  | some s => (List.range (s.body.length / 32)).map fun i => (leAt s.body (32 * i + 4) 4, leAt s.body (32 * i + 8) 4)

/-- An image is in force, and line `a` lies outside every region of its table; the regions of the image replaced at the
last swap stay valid until they are released (R169, R192). -/
def Chip.plainOutside (c : Chip) (a : Nat) : Bool :=
  match c.loader.image with
  | none => false
  | some im =>
    let old := if c.loader.released then [] else (c.loader.old.map Image.regionSpans).getD []
    !((im.regionSpans ++ old).any fun r : Nat × Nat => decide (r.1 ≤ 64 * a) && decide (64 * a < r.1 + r.2))

/-- Read a whole Plain line (R416, R440, R442, R443, R450); outside every region an engine gets poison (R169). -/
def Chip.plainReadLine (c : Chip) (who : PlainReader) (a : Nat) : List MByte × Chip :=
  if who = .engine ∧ c.plainOutside a = true then
    (List.replicate 64 MByte.aborted, c.alert Code.PLAIN_BOUNDS noUnit 0)
  else
  let c := c.tallyAdd F.PLAIN_RD_LINES.LINES 1
  if c.mem.mapped a then
    let rs := c.mem.lineDecode c.lostDie a
    let dies := rs.filterMap fun r => if r.outcome = .corrected then some r.die else none
    let bad := rs.any fun r => r.outcome = .uncorrectable
    let c := if dies.isEmpty then c else c.plainCe a dies
    let c := if bad then c.plainUe a (who != .scrub) else c
    (rs.flatMap fun r => r.syms.map fun b => ⟨b, r.outcome = .uncorrectable⟩, c)
  else
    let bs := (List.range 64).map fun i => (⟨c.mem.byte (memKey 8 (64 * a + i)), true⟩ : MByte)
    match who with
    | .scrub => (bs, c)
    | .host => (bs, (c.raise F.MEM_EVENTS.NEVER_WRITTEN).set F.PLAIN_NW_ADDR.OFFSET (64 * a))
    | .engine =>
      (bs, ((c.raise F.MEM_EVENTS.NEVER_WRITTEN).set F.PLAIN_NW_ADDR.OFFSET (64 * a)).alertOnce
        Code.NEVER_WRITTEN noUnit 0)

/-- Read `n` whole lines from line `a` on. -/
def Chip.plainReadLines (who : PlainReader) : Nat → Nat → Chip → List MByte × Chip
  | _, 0, c => ([], c)
  | a, n + 1, c =>
    let (l, c) := c.plainReadLine who a
    let (ls, c) := Chip.plainReadLines who (a + 1) n c
    (l ++ ls, c)

/-- An engine or a Mover writes a whole line; outside every region the write is discarded (R169). -/
def Chip.plainEngineWrite (c : Chip) (a : Nat) (bs : List MByte) : Chip :=
  if c.plainOutside a then c.alert Code.PLAIN_BOUNDS noUnit 0 else c.plainWriteLine a bs

/-- Write whole lines from line `a` on, as many as the bytes fill. -/
def Chip.plainWriteLines (c : Chip) (a n : Nat) (bs : List MByte) : Chip :=
  match n with
  | 0 => c
  | n + 1 => (c.plainEngineWrite a (bs.take 64)).plainWriteLines (a + 1) n (bs.drop 64)

/-! ### Any memory -/

/-- Bytes past the end of a memory, as a reader gets them: poisoned zeros (log entry 7). -/
def beyond (n : Nat) : List MByte := List.replicate n MByte.aborted

/-- Read `n` bytes at an offset of a memory. -/
def Chip.memRead (c : Chip) (who : PlainReader) (mem off n : Nat) : List MByte × Chip :=
  let n' := min n (memSize mem - off)
  if mem = 8 then
    if n' = 0 then (beyond n, c) else
      let first := off / 64
      let lines := (off + n' - 1) / 64 - first + 1
      let (bs, c) := Chip.plainReadLines who first lines c
      ((bs.drop (off % 64)).take n' ++ beyond (n - n'), c)
  else
    let (bs, c) := Chip.sramRead true (memKey mem off) n' c
    (bs ++ beyond (n - n'), c)

/-- Write bytes at an offset of a memory; the Plain takes whole lines only (R411), and a write past the end is lost. -/
def Chip.memWrite (c : Chip) (mem off : Nat) (bs : List MByte) : Chip :=
  let bs := bs.take (memSize mem - off)
  if mem = 8 then c.plainWriteLines (off / 64) (bs.length / 64) bs
  else { c with mem := c.mem.storeBytes (memKey mem off) bs }

/-! ### Loss of a Plain die -/

/-- Die `d` is declared lost for a cause of R444; what R445 lists takes effect, and the record carries the cause (log entry 99). -/
def Chip.loseDie (c : Chip) (d cause : Nat) : Chip :=
  let c := c.set F.DEV_STATE.DEGRADE (c.fld F.DEV_STATE.DEGRADE ||| 2)
  let c := (c.set F.ECC_STATUS.LOST_DIE d).set F.ECC_STATUS.LOSS_CAUSE cause
  (c.raise F.ECC_EVENTS.DIE_LOST).alert Code.PLAIN_DIE_LOST d cause

/-- States in which a declaration takes effect (R445). -/
def DevState.declares : DevState → Bool
  | .load | .hold | .run | .degraded | .faultStop => true
  | _ => false

/-- Dies qualify by THRESHOLD or CHANNEL in one cycle: the first loss is declared, a second is fatal (R445, R446). -/
def Chip.dieQualifies (c : Chip) (dies : List Nat) (cause : Nat) : Chip :=
  if c.dev.declares then
    match c.lostDie, (List.range 10).filter (fun d => dies.contains d && c.lostDie != some d) with
    | _, [] => c
    | some l, d :: _ => c.fatal Code.PLAIN_DIE_SECOND d l
    | none, [d] => c.loseDie d cause
    | none, d :: e :: _ => c.fatal Code.PLAIN_DIE_SECOND d e
  else c

end Sys2Proof.Machine
end

