-- ==== Sys2Proof/Machine/Act.lean ====
section
/-!
DEFINITION. Machine/Act.lean: how a command acts on the state, and what is watched after every command: the fault conditions and
nFAULT (R611, R612) and the sources of the in-band interrupt (R535), with the few readings they need.
-/
namespace Sys2Proof.Machine

/-! ### What the conditions read -/

/-- Byte `i` of the descriptor of queue `q`, as it decodes (R434). -/
def Mem.descByte (m : Mem) (q i : Nat) : MByte := (m.loadByte (memKey 0 (32 * q + i))).1

/-- Queues whose STATE byte decodes as `v`, which is not 0: its data cell or its check cell is listed then. -/
def Mem.queuesIn (m : Mem) (v : Byte) : List Nat :=
  let keys := m.data.map (fun e : Nat × Byte => e.1) ++
    (m.chk.filter fun e : Nat × Byte => m.byte e.1 == 0).map fun e : Nat × Byte => e.1
  (keys.filter fun k => decide (k < 0x200000) && k % 32 == 0 && (m.loadByte k).1.v == v).map fun k => k / 32

/-- Queues now FROZEN (R490): descriptors whose STATE byte reads 2, without a mark. -/
def Mem.frozenQueues (m : Mem) : List Nat := (m.queuesIn 2).filter fun q => !(m.descByte q 0).p

/-- Group `g`. -/
def Terrace.group (t : Terrace) (g : Nat) : Group := Sparse.get (fun _ => Group.fresh) t.groups g

/-- The good slices of a group, ascending. -/
def Group.goods (x : Group) : List Nat := (List.range 5).filter x.good.testBit

/-- A group's mode (R237). -/
def Group.mode (x : Group) : Nat := match x.goods.length with | 5 => 0 | 4 => 1 | 3 => 2 | 2 => 3 | _ => 4

/-- Every group, in order. -/
def Terrace.allGroups (t : Terrace) : List Group := (List.range 512).map t.group

/-- Rail `r`. -/
def Chip.rail (c : Chip) (r : Nat) : Rail := c.supply.rails.getD r (Rail.nominal 0)

/-! ### Conditions and nFAULT (R611, R612) -/

/-- FLT_COND as it reads. -/
def Chip.condWord (c : Chip) : Word :=
  let bits : List Bool :=
    [c.fld F.VALE_MASK.RUNNING != 63,
     c.lostDie.isSome,
     c.terrace.allGroups.any fun x => decide (2 ≤ x.mode),
     c.bit F.PRIV_STATUS.FAULT,
     c.bit F.LOOP_STATUS.STALLED,
     (c.rail 5).state == 1 && c.loop.vcm.used,
     c.supply.range,
     c.supply.vddlLow,
     decide (0 < c.supply.level),
     !c.mem.frozenQueues.isEmpty]
  Word.of ((bits.zipIdx.map fun b => if b.1 then 2 ^ b.2 else 0).foldl (· + ·) 0)

/-- nFAULT is driven low. -/
def Chip.nfaultLow (c : Chip) : Bool :=
  match c.dev with
  | .off => false
  | .resetHold | .sense | .faultStop => true
  | _ =>
    (c.word A.FLT_ACTIVE &&& ~~~(c.word A.FLT_MASK)) != 0 || (c.condWord &&& ~~~(c.word A.FLT_COND_MASK)) != 0

/-! ### Interrupt sources (R260, R535) -/

/-- SRV_IRQ_STATUS.FIFO_WM (R260). -/
def Chip.srvWatermark (c : Chip) : Bool :=
  decide (min 64 (max 1 (c.fld F.SRV_CFG.WATERMARK)) ≤ c.survey.fifo.length)

/-- SRV_IRQ_STATUS as it reads. -/
def Chip.srvIrqWord (c : Chip) : Word := withField (c.word A.SRV_IRQ_STATUS) 1 1 c.srvWatermark.toNat

/-- The Survey requests an interrupt (R260). -/
def Chip.surveyRequests (c : Chip) : Bool := (c.srvIrqWord &&& c.word A.SRV_IRQ_EN) != 0

/-- HIF_IRQ_STATUS: its levels follow nFAULT and the Survey (R535). -/
def Chip.irqStatusWord (c : Chip) : Word :=
  withField (withField (c.word A.HIF_IRQ_STATUS) 1 1 c.nfaultLow.toNat) 2 1 c.surveyRequests.toNat

/-- HIF_IRQ_STATUS AND HIF_IRQ_EN. -/
def Chip.irqRequested (c : Chip) : Word := c.irqStatusWord &&& c.word A.HIF_IRQ_EN

/-! ### How a command acts -/

/-- The chip after a command: a bit of the AND that became 1 asks for an in-band interrupt (R535), which a reset forgets. -/
def State.after (s : State) (c : Chip) : State :=
  { s with chip := c
           irqDue := c.dev.portsAnswer && (s.irqDue || (c.irqRequested &&& ~~~s.chip.irqRequested) != 0) }

/-- The effect of a command on the chip. An ill-formed command is no event of the hardware, and nothing happens
(log entry 11). -/
def act (i : Instr) (f : Fuses → Chip → Chip) (s : State) : Host.Outcome State Fault Refusal :=
  .next (if i.wf then s.after (f s.fuses s.chip) else s)

/-- The effect of a command that can burn a fuse. -/
def actFuses (i : Instr) (f : Fuses → Chip → Fuses × Chip) (s : State) : Host.Outcome State Fault Refusal :=
  .next (if i.wf then { s.after (f s.fuses s.chip).2 with fuses := (f s.fuses s.chip).1 } else s)

end Sys2Proof.Machine
end

