-- ==== Sys2Proof/Machine/Queue.lean ====
section
/-!
DEFINITION. Machine/Queue.lean: the queue manager (R474 to R480, R666, R620) and the commands that reach it through the
PASS registers (R480, R483, R490).
-/
namespace Sys2Proof.Machine

/-! ### Descriptors (R474, R475) -/

namespace QDesc

/-- Fields of a descriptor's 32 bytes. -/
def state (d : List Byte) : Nat := leAt d 0 1
def cls (d : List Byte) : Nat := leAt d 1 1
def es (d : List Byte) : Nat := leAt d 2 1
def full (d : List Byte) : Nat := leAt d 3 1 % 4
def poison (d : List Byte) : Nat := leAt d 3 1 / 4 % 4
def owner (d : List Byte) : Nat := leAt d 4 1
def ringMem (d : List Byte) : Nat := leAt d 5 1
def credits (d : List Byte) : Nat := leAt d 6 2
def ringBase (d : List Byte) : Nat := leAt d 8 4
def ringLog2 (d : List Byte) : Nat := leAt d 12 1
def head (d : List Byte) : Nat := leAt d 16 4
def tail (d : List Byte) : Nat := leAt d 20 4
def drops (d : List Byte) : Nat := leAt d 24 2
def poisons (d : List Byte) : Nat := leAt d 26 2
def tickPushes (d : List Byte) : Nat := leAt d 28 2

/-- Element size in bytes. -/
def size (d : List Byte) : Nat := 2 ^ (es d + 3)

/-- Capacity in elements. -/
def capacity (d : List Byte) : Nat := 2 ^ ringLog2 d / size d

/-- Elements held. -/
def fill (d : List Byte) : Nat := (tail d + 0x100000000 - head d) % 0x100000000

/-- Offset of the element with counter `i` (R475). -/
def slot (d : List Byte) (i : Nat) : Nat := ringBase d + i * size d % 2 ^ ringLog2 d

/-- CLASS to RING_LOG2 lie within R474. -/
def fieldsOk (d : List Byte) : Bool :=
  decide (cls d ≤ 3) && decide (es d ≤ 3) && decide (full d ≠ 3) && decide (poison d ≠ 3) && decide (leAt d 3 1 < 16) &&
  decide (owner d ≤ 19) && (ringMem d == 0 || ringMem d == 8) && decide (6 ≤ ringLog2 d) && decide (ringLog2 d ≤ 24)

/-- The ring lies where R474 and R482 let it lie. -/
def ringOk (d : List Byte) : Bool :=
  decide (ringBase d % 64 = 0) &&
  (if ringMem d = 0 then decide (0x200000 ≤ ringBase d) && decide (ringBase d + 2 ^ ringLog2 d ≤ 0x3000000)
   else decide (ringBase d + 2 ^ ringLog2 d ≤ 0x40000000) && es d == 3)

/-- A malformed descriptor (R666). -/
def malformed (d : List Byte) : Bool :=
  decide (3 < state d) || ((state d == 1 || state d == 2) && !(fieldsOk d && ringOk d))

end QDesc

/-- The descriptor bytes of queue `q`, as they decode. -/
def Mem.descriptor (m : Mem) (q : Nat) : List Byte := (List.range 32).map fun i => (m.descByte q i).v

/-- A byte of the descriptor of queue `q` reads as poisoned. -/
def Mem.descPoisoned (m : Mem) (q : Nat) : Bool := (List.range 32).any fun i => (m.descByte q i).p

/-- The queue manager writes a descriptor field. -/
def Chip.qWrite (c : Chip) (q off n v : Nat) : Chip := c.memWrite 0 (32 * q + off) ((leBytes n v).map MByte.clean)

/-- Queues whose STATE byte reads ACTIVE and whose OWNER byte reads `node`. -/
def Mem.ownedQueues (m : Mem) (node : Nat) : List Nat := (m.queuesIn 1).filter fun q => (m.descByte q 4).v == Byte.of node

/-- Flits of the Control class are counted as they are sent (R490). -/
def Chip.countFlits (c : Chip) (vc n : Nat) : Chip := if vc = 0 then c.tallyAdd F.PASS_CTRL_FLITS.VALUE n else c

/-- An event of Q_LAST_EVENT (R490). -/
def Chip.qEvent (c : Chip) (q status : Nat) : Chip :=
  (c.set F.Q_LAST_EVENT.STATUS status).set F.Q_LAST_EVENT.QUEUE q

/-- The queue manager reads a descriptor (R479): its bytes, or none when a poisoned byte makes the queue BROKEN. A queue
already BROKEN is read as such. -/
def Chip.qOpen (c : Chip) (q : Nat) : Option (List Byte) × Chip :=
  let (bs, c) := c.memRead .engine 0 (32 * q) 32
  let ds := bs.map fun b : MByte => b.v
  match bs.head? with
  | some ⟨3, false⟩ => (some ds, c)
  | _ =>
    if (bs.any fun b : MByte => b.p) then
      let c := (c.qWrite q 0 1 3).raise F.Q_EVENTS.BROKEN
      (none, (c.alert Code.QUEUE_DESC_POISON q 0).qEvent q 8)
    else (some ds, c)

/-! ### Push (R476) -/

/-- A push or pop that performs nothing for want of an active queue. -/
def Chip.qNotActive (c : Chip) (q : Nat) : Chip :=
  ((c.raise F.Q_EVENTS.NOT_ACTIVE).alertOnce Code.QUEUE_NOT_ACTIVE q 0).qEvent q 3

/-- A push discarded with a status: DROPS + 1, Q_EVENTS.DROP. -/
def Chip.qDrop (c : Chip) (q : Nat) (d : List Byte) (status : Nat) : Chip :=
  ((c.qWrite q 24 2 (satAdd 16 (QDesc.drops d) 1)).raise F.Q_EVENTS.DROP).qEvent q status

/-- Write an element at TAIL. -/
def Chip.qAppend (c : Chip) (q : Nat) (d : List Byte) (el : List MByte) : Chip :=
  let padded := el ++ List.replicate (QDesc.size d - el.length) (MByte.clean 0)
  let c := c.memWrite (QDesc.ringMem d) (QDesc.slot d (QDesc.tail d)) padded
  (c.qWrite q 20 4 (QDesc.tail d + 1)).qWrite q 28 2 (satAdd 16 (QDesc.tickPushes d) 1)

/-- A push to an opened queue; `waits` is false for a producer that never waits. The status of R476. -/
def Chip.qPushOpen (c : Chip) (q : Nat) (d : List Byte) (el : List MByte) (waits : Bool) : Nat × Chip :=
  if QDesc.malformed d || QDesc.state d == 0 then (3, (c.qNotActive q).raise F.Q_EVENTS.DROP)
  else if QDesc.state d = 2 then (4, c.qDrop q d 4)
  else if QDesc.state d = 3 then (4, (c.raise F.Q_EVENTS.DROP).qEvent q 4)
  else if QDesc.size d < el.length then (9, (c.qDrop q d 9).alertOnce Code.QUEUE_OVERSIZE noUnit 0)
  else if QDesc.credits d ≠ 0 ∧ QDesc.tickPushes d = QDesc.credits d then
    (2, (c.qDrop q d 2).alertOnce Code.QUEUE_CREDIT q 0)
  else if QDesc.fill d = QDesc.capacity d then
    if QDesc.full d = 1 then
      let c := (c.qDrop q d 0).qWrite q 16 4 (QDesc.head d + 1)
      (0, c.qAppend q d el)
    else if QDesc.full d = 2 ∧ waits = true then (1, c.qEvent q 1)
    else (1, (c.qDrop q d 1).alertOnce Code.QUEUE_FULL q 0)
  else (0, c.qAppend q d el)

/-- A push of `el` to queue `q`: the status of R476 or R479. -/
def Chip.qPush (c : Chip) (q : Nat) (el : List MByte) (waits : Bool) : Nat × Chip :=
  match (c.tallyAdd F.Q_OPS.COUNT 1).qOpen q with
  | (none, c) => (8, c.raise F.Q_EVENTS.DROP)
  | (some d, c) => c.qPushOpen q d el waits

/-! ### Pop (R477) -/

/-- Try the element at HEAD, discarding poisoned ones under POISON DISCARD; a discard of the last element accompanies EMPTY (R490). -/
def Chip.qTake (q : Nat) (d : List Byte) : Nat → Nat → Nat → Chip → Nat × List MByte × Chip
  | 0, _, _, c => (6, [], c)
  | left + 1, head, poisons, c =>
    let (el, c) := c.memRead .engine (QDesc.ringMem d) (QDesc.slot d head) (QDesc.size d)
    let hit := el.any fun b : MByte => b.p
    if hit && QDesc.poison d == 1 then
      let c := (c.qWrite q 16 4 (head + 1)).qWrite q 26 2 (satAdd 16 poisons 1)
      Chip.qTake q d left (head + 1) (satAdd 16 poisons 1) (c.qEvent q (if left = 0 then 6 else 0))
    else if hit && QDesc.poison d == 2 then
      let c := (c.qWrite q 0 1 2).raise F.Q_EVENTS.FROZEN
      (6, [], (c.alert Code.QUEUE_FROZEN q 0).qEvent q 6)
    else (0, el, c.qWrite q 16 4 (head + 1))

/-- The element that a BROKEN queue gives: poisoned zeros of the element size, 64 bytes where ES does not name one. -/
def Chip.brokenElement (c : Chip) (q : Nat) : List MByte :=
  let es := c.mem.descByte q 2
  List.replicate (if es.v.toNat ≤ 3 ∧ es.p = false then 2 ^ (es.v.toNat + 3) else 64) MByte.aborted

/-- A pop of an opened queue by a node: status, element, chip (R477). -/
def Chip.qPopOpen (c : Chip) (node q : Nat) (d : List Byte) : Nat × List MByte × Chip :=
  if QDesc.malformed d then (3, [], c.qNotActive q)
  else if QDesc.owner d ≠ node ∧ (QDesc.state d ≠ 3 ∨ (c.mem.descByte q 4).p = false) then
    (5, [], (c.alertOnce Code.QUEUE_OWNER q 0).qEvent q 5)
  else if QDesc.state d = 0 then (3, [], c.qNotActive q)
  else if QDesc.state d = 3 then (0, c.brokenElement q, c)
  else if QDesc.state d = 2 then (6, [], c)
  else Chip.qTake q d (QDesc.fill d) (QDesc.head d) (QDesc.poisons d) c

/-- A pop of queue `q` by a node: status of R477 or R479, element, chip. -/
def Chip.qPop (c : Chip) (node q : Nat) : Nat × List MByte × Chip :=
  match (c.tallyAdd F.Q_OPS.COUNT 1).qOpen q with
  | (none, c) => (8, c.brokenElement q, c)
  | (some d, c) => c.qPopOpen node q d

/-! ### Freezing, unfreezing and clearing -/

/-- Freeze every ACTIVE queue that a node owns (R620); the queues frozen. -/
def Chip.qFreezeOwned (c : Chip) (node : Nat) : List Nat × Chip :=
  (c.mem.ownedQueues node).foldl (fun (fs, c) q =>
    match c.qOpen q with
    | (none, c) => (fs, c)
    | (some _, c) =>
      let c := (c.qWrite q 0 1 2).raise F.Q_EVENTS.FROZEN
      (fs ++ [q], (c.alert Code.QUEUE_FROZEN q 0).qEvent q 4)) ([], c)

/-- A write of Q_FREEZE_CTRL (R480): 1 RESUME, 2 FLUSH. -/
def Chip.qUnfreeze (c : Chip) (q action : Nat) : Chip :=
  if c.dev.open then
    match c.qOpen q with
    | (none, c) => c.raise F.Q_EVENTS.UNFREEZE_REJECTED
    | (some d, c) =>
      if QDesc.state d = 2 then
        let c := if action = 2 then c.qWrite q 16 4 (QDesc.tail d) else c
        let c := c.qWrite q 0 1 1
        { c with fabric := { c.fabric with frozenBy := c.fabric.frozenBy.filter fun f => f.1 != q } }
      else c.raise F.Q_EVENTS.UNFREEZE_REJECTED
  else c

/-- RESUME. -/
def execResume (q : Nat) (s : State) : Host.Outcome State Fault Refusal :=
  act (.resume q) (fun _ c => c.qUnfreeze q 1) s

/-- FLUSH. -/
def execFlush (q : Nat) (s : State) : Host.Outcome State Fault Refusal :=
  act (.flush q) (fun _ c => c.qUnfreeze q 2) s

/-- HEAD := TAIL in a bound queue at the entry to RUN (R499); not while a byte of its descriptor is poisoned, BROKEN already or not
(R479). -/
def Chip.qClear (c : Chip) (q : Nat) : Chip :=
  let poisoned := c.mem.descPoisoned q
  match c.qOpen q with
  | (none, c) => c
  | (some d, c) => if poisoned then c else c.qWrite q 16 4 (QDesc.tail d)

/-- TICK_PUSHES of every queue is cleared at a tick edge (R476); a poisoned byte stays as it is. -/
def Mem.clearTickPushes (m : Mem) : Mem :=
  let hit (k : Nat) : Bool :=
    decide (k < 0x200000) && (k % 32 == 28 || k % 32 == 29) && (m.loadByte k).2 != .uncorrectable
  { m with data := m.data.filter (fun e => !hit e.1), chk := m.chk.filter (fun e => !hit e.1),
           writeBack := m.writeBack.filter fun e => !hit e.1 }

/-! ### Host access (R483, R490) -/

/-- Bytes of QH_DATA. -/
def Chip.qhData (c : Chip) : List Byte := (List.range 16).flatMap fun i => leBytes 4 (c.word (A.QH_DATA + 4 * i)).toNat

/-- Put an element into QH_DATA; a poisoned byte reads 0xFF. -/
def Chip.setQhData (c : Chip) (el : List MByte) : Chip :=
  let bs := (el.map fun b : MByte => if b.p then (0xFF : Byte) else b.v) ++ (c.qhData.drop el.length)
  (List.range 16).foldl (fun c i => c.put (A.QH_DATA + 4 * i) (Word.of (leAt bs (4 * i) 4))) c

/-- A host request that R483 turns away. -/
def Chip.qhForbidden (c : Chip) (q : Nat) : Chip :=
  (c.set F.QH_STATUS.STATUS 7).alert Code.HOST_QUEUE_FORBIDDEN q 0

/-- What a pop by the host returned: its status, its element and that element's marks (R483). -/
def Chip.qhPopped (c : Chip) (st : Nat) (el : List MByte) : Chip :=
  ((c.set F.QH_STATUS.STATUS st).setQhData el).setBit F.QH_STATUS.POISON (el.any fun b : MByte => b.p)

/-- A write of QH_CTRL (R483): 1 push, 2 pop. The host never waits, so a full STALL queue is to it as DROP_NEW (R476, log entry 115); a
queue that this very operation breaks is BROKEN to it (R479). In a state other than R483's it is any other request (log entry 119). -/
def Chip.qhCtrl (c : Chip) (q op : Nat) : Chip :=
  if c.dev.portsAnswer && !c.dev.open && (op == 1 || op == 2) then c.qhForbidden q
  else if c.dev.open && (op == 1 || op == 2) then
    match ((c.set F.QH_STATUS.POISON 0).tallyAdd F.Q_OPS.COUNT 1).qOpen q with
    | (none, c) => if op = 1 then (c.raise F.Q_EVENTS.DROP).set F.QH_STATUS.STATUS 8 else c.qhPopped 8 (c.brokenElement q)
    | (some d, c) =>
      if op = 1 then
        if QDesc.cls d = 2 ∨ QDesc.cls d = 3 then
          let (st, c) := c.qPushOpen q d (((c.qhData).take (QDesc.size d)).map MByte.clean) false
          c.set F.QH_STATUS.STATUS st
        else c.qhForbidden q
      else if QDesc.owner d = 0 then
        let (st, el, c) := c.qPopOpen 0 q d
        if st = 0 then c.qhPopped 0 el else c.set F.QH_STATUS.STATUS st
      else c.qhForbidden q
  else c

/-- QH_PUSH. -/
def execQhPush (q : Nat) (s : State) : Host.Outcome State Fault Refusal :=
  act (.qhPush q) (fun _ c => c.qhCtrl q 1) s

/-- QH_POP. -/
def execQhPop (q : Nat) (s : State) : Host.Outcome State Fault Refusal :=
  act (.qhPop q) (fun _ c => c.qhCtrl q 2) s

/-- A write of Q_SEL: the descriptor's bytes are read, with what a read of them counts (R437, R450), and go into Q_SNAP, poisoned ones as
0xFF (R490). -/
def Chip.qSelWrite (c : Chip) (q : Nat) : Chip :=
  if c.dev.open then
    let c := c.set F.Q_SEL.QUEUE q
    let (ms, c) := c.memRead .engine 0 (32 * q) 32
    let bs := ms.map fun b : MByte => if b.p then (0xFF : Byte) else b.v
    (List.range 8).foldl (fun c i => c.put (A.Q_SNAP + 4 * i) (Word.of (leAt bs (4 * i) 4))) c
  else c

/-- Q_SEL_WRITE. -/
def execQSelWrite (q : Nat) (s : State) : Host.Outcome State Fault Refusal :=
  act (.qSelWrite q) (fun _ c => c.qSelWrite q) s

end Sys2Proof.Machine
end

