-- ==== Sys2Proof/Machine/Operands.lean ====
section
/-!
DEFINITION. Machine/Operands.lean: what a structure image says: its header, directory, schedule tables, units, regions,
curves and runs (R160 to R174, R106 to R109). The bodies of the engines' sections are read in their own files.
-/
namespace Sys2Proof.Machine

/-! ### Sections (R160 to R164) -/

/-- Type codes of R164. -/
abbrev Ty.SCHEDULE : Nat := 1
abbrev Ty.READOUT : Nat := 2
abbrev Ty.FRONT : Nat := 3
abbrev Ty.CURVES : Nat := 4
abbrev Ty.SADDLE_UNITS : Nat := 5
abbrev Ty.VALE_UNITS : Nat := 6
abbrev Ty.MOVER_UNITS : Nat := 7
abbrev Ty.QUEUE_TABLE : Nat := 8
abbrev Ty.ROUTING : Nat := 9
abbrev Ty.STATE_MACHINE : Nat := 10
abbrev Ty.EXPERTS : Nat := 11
abbrev Ty.PLAIN_REGIONS : Nat := 12
abbrev Ty.MEMORY_LOADS : Nat := 13
abbrev Ty.DATA : Nat := 14
abbrev Ty.REG_DEFAULTS : Nat := 15

/-- Bytes `off` to `off + n − 1` of a byte string. -/
def sliceOf (bs : List Byte) (off n : Nat) : List Byte := (bs.drop off).take n

/-- A little-endian field read as a signed number. -/
def sleAt (bs : List Byte) (off n : Nat) : Int := signedOf (8 * n) (leAt bs off n)

/-- A byte string cut into records of `n` bytes, as many as are whole. -/
def recordsOf (n : Nat) (bs : List Byte) : List (List Byte) :=
  (List.range (bs.length / n)).map fun i => sliceOf bs (n * i) n

/-- Section of a type and instance, with its directory index. -/
def Image.findIdx (im : Image) (ty inst : Nat) : Option Nat :=
  (im.sections.zipIdx.find? fun e => e.1.ty == ty && e.1.inst == inst).map (·.2)

/-- The body of the section of a type and instance; empty when the image has none. -/
def Image.body (im : Image) (ty inst : Nat) : List Byte :=
  match im.sections.find? fun e => e.ty == ty && e.inst == inst with
  | some e => e.body
  | none => []

/-- The body of the section with a directory index. -/
def Image.bodyAt (im : Image) (i : Nat) : List Byte :=
  match im.sections[i]? with
  | some e => e.body
  | none => []

/-! ### Header (R161) -/

def Image.imageId (im : Image) : Nat := leAt im.header 0x10 4
def Image.rollback (im : Image) : Nat := leAt im.header 0x14 1
def Image.minVddl (im : Image) : Nat := leAt im.header 0x18 2
def Image.ctrlBudget (im : Image) : Nat := leAt im.header 0x1A 2

/-! ### Schedule tables (R106 to R109) -/

/-- One schedule entry (R109). -/
structure Entry where
  start : Nat
  lane : Nat
  length : Nat
  frameOfs : Nat
  cls : Nat
  unitId : Nat
  replay : Nat
  flags : Nat
  rowGate : Nat
  after : Nat
  cMax : Nat
  deriving DecidableEq, Repr

/-- The entry whose 16 bytes these are. -/
def Entry.ofBytes (b : List Byte) : Entry :=
  let a := leAt b 0 2
  let l := leAt b 2 2
  { start := a % 4096, lane := a / 4096, length := l % 8192, frameOfs := l / 8192 % 2, cls := l / 16384,
    unitId := leAt b 4 2, replay := leAt b 6 1, flags := leAt b 7 1, rowGate := leAt b 8 2, after := leAt b 10 2,
    cMax := leAt b 12 4 }

/-- First slot after the window. -/
def Entry.stop (e : Entry) : Nat := e.start + e.length

/-- A schedule table: its header (R107) and its entries. -/
structure Table where
  count : Nat
  rate : Nat
  mode : Nat
  spill : Nat
  fsoOffset : Nat
  fsoWidth : Nat
  holdover : Nat
  fsyncWait : Nat
  fallback : Nat
  valeMhz : List Nat
  reserved : List Byte
  entries : List Entry
  deriving DecidableEq, Repr

/-- The table that a SCHEDULE body holds. -/
def Table.ofBytes (b : List Byte) : Table :=
  let n := leAt b 0 2
  { count := n, rate := leAt b 2 1, mode := leAt b 3 1, spill := leAt b 4 2, fsoOffset := leAt b 6 2,
    fsoWidth := leAt b 8 1, holdover := leAt b 9 1, fsyncWait := leAt b 10 1, fallback := leAt b 11 1,
    valeMhz := (List.range 6).map (fun i => leAt b (12 + 2 * i) 2), reserved := sliceOf b 24 8,
    entries := (recordsOf 16 (sliceOf b 32 (16 * n))).map Entry.ofBytes }

/-- Declared clock of Vale `n` in a table, in MHz; 0 for a Vale the table does not use. -/
def Table.mhz (t : Table) (n : Nat) : Nat := t.valeMhz.getD n 0

/-- The primary table. -/
def Image.primary (im : Image) : Table := Table.ofBytes (im.body Ty.SCHEDULE 0xFF)

/-- The fallback table for a Vale, if the image holds one. -/
def Image.fallback (im : Image) (n : Nat) : Option Table :=
  (im.findIdx Ty.SCHEDULE n).map fun _ => Table.ofBytes (im.body Ty.SCHEDULE n)

/-- Every table, with its instance: the primary first, then the fallbacks in directory order. -/
def Image.tables (im : Image) : List (Nat × Table) :=
  (0xFF, im.primary) ::
    (im.sections.filter fun e => e.ty == Ty.SCHEDULE && e.inst != 0xFF).map fun e => (e.inst, Table.ofBytes e.body)

/-- Every tick rate of R69: rate in Hz, TICK cycles per slot; codes that admission rejects (R70) read as 60 Hz. -/
def rateRow : Nat → Nat × Nat
  | 0 => (30, 1000) | 1 => (50, 600) | 3 => (100, 300) | 4 => (120, 250) | _ => (60, 500)

/-- Ticks per second at a RATE code. -/
def rateHz (r : Nat) : Nat := (rateRow r).1

/-- TICK cycles of one slot at a RATE code. -/
def slotCycles (r : Nat) : Nat := (rateRow r).2

/-! ### Units (R165, R166) -/

/-- One pass record. -/
structure PassRec where
  compute : Nat
  lines : Nat
  iterMax : Nat
  iterSrc : Nat
  rsv : Nat
  deriving DecidableEq, Repr

/-- One unit record: header fields, passes, region references (id, access, reserved) and the engine's body. -/
structure UnitRec where
  passCount : Nat
  regionCount : Nat
  network : Nat
  flags : Nat
  bodyOfs : Nat
  bodySize : Nat
  rsv : List Byte
  passes : List PassRec
  regions : List (Nat × Nat × Nat)
  body : List Byte
  /-- The whole record. -/
  bytes : List Byte
  deriving DecidableEq, Repr

/-- The unit that a record's bytes hold. -/
def UnitRec.ofBytes (b : List Byte) : UnitRec :=
  let p := leAt b 0 2
  let r := leAt b 2 2
  { passCount := p, regionCount := r, network := leAt b 4 2, flags := leAt b 6 2, bodyOfs := leAt b 8 4,
    bodySize := leAt b 12 4, rsv := sliceOf b 16 16,
    passes := (List.range p).map (fun i =>
      let o := 32 + 16 * i
      { compute := leAt b o 4, lines := leAt b (o + 4) 4, iterMax := leAt b (o + 8) 4, iterSrc := leAt b (o + 12) 2,
        rsv := leAt b (o + 14) 2 }),
    regions := (List.range r).map (fun i =>
      let o := 32 + 16 * p + 4 * i
      (leAt b o 2, leAt b (o + 2) 1, leAt b (o + 3) 1)),
    body := sliceOf b (leAt b 8 4) (leAt b 12 4), bytes := b }

/-- Type and instance of the section that holds a schedule lane's units (codes of R94). -/
def unitSection (lane : Nat) : Nat × Nat :=
  if lane = 0 then (Ty.SADDLE_UNITS, 0) else if lane ≤ 6 then (Ty.VALE_UNITS, lane - 1) else (Ty.MOVER_UNITS, lane - 7)

/-- Units a section's directory lists. -/
def unitCount (sec : List Byte) : Nat := leAt sec 0 2

/-- Unit `u` of a section; none when the directory does not list it. -/
def unitOf (sec : List Byte) (u : Nat) : Option UnitRec :=
  if u < unitCount sec then some (UnitRec.ofBytes (sliceOf sec (leAt sec (16 + 8 * u) 4) (leAt sec (20 + 8 * u) 4)))
  else none

/-- Unit `u` of a schedule lane. -/
def Image.unit (im : Image) (lane u : Nat) : Option UnitRec :=
  unitOf (im.body (unitSection lane).1 (unitSection lane).2) u

/-! ### Regions, loads, defaults, curves and runs (R168 to R173) -/

/-- One entry of PLAIN_REGIONS. -/
structure Region where
  id : Nat
  access : Nat
  fill : Nat
  base : Nat
  size : Nat
  src : Nat
  srcOfs : Nat
  pattern : List Byte
  rsv : Nat
  deriving DecidableEq, Repr

/-- The region entry whose 32 bytes these are. -/
def Region.ofBytes (b : List Byte) : Region :=
  { id := leAt b 0 2, access := leAt b 2 1, fill := leAt b 3 1, base := leAt b 4 4, size := leAt b 8 4,
    src := leAt b 12 2, srcOfs := leAt b 16 4, pattern := sliceOf b 20 8, rsv := leAt b 14 2 + leAt b 28 4 }

/-- The regions that a PLAIN_REGIONS body lists. -/
def regionsOf (body : List Byte) : List Region := (recordsOf 32 body).map Region.ofBytes

def Image.regions (im : Image) : List Region := regionsOf (im.body Ty.PLAIN_REGIONS 0)

/-- One entry of MEMORY_LOADS. -/
structure MemLoad where
  dest : Nat
  off : Nat
  size : Nat
  src : Nat
  srcOfs : Nat
  rsv : Nat
  deriving DecidableEq, Repr

/-- The entries of MEMORY_LOADS. -/
def Image.memLoads (im : Image) : List MemLoad :=
  (recordsOf 24 (im.body Ty.MEMORY_LOADS 0)).map fun b =>
    { dest := leAt b 0 1, off := leAt b 4 4, size := leAt b 8 4, src := leAt b 12 2, srcOfs := leAt b 16 4,
      rsv := leAt b 1 3 + leAt b 14 2 + leAt b 20 4 }

/-- The (address, value) entries of REG_DEFAULTS (R171). -/
def Image.regDefaults (im : Image) : List (Nat × Word) :=
  (recordsOf 8 (im.body Ty.REG_DEFAULTS 0)).map fun b => (leAt b 0 4, Word.of (leAt b 4 4))

/-- One curve record (R172). -/
structure CurveRec where
  kind : Nat
  index : Nat
  points : Nat
  bpp : Nat
  rsv : Nat
  data : List Byte
  deriving DecidableEq, Repr

/-- The curve records of a CURVES body; `fuel` bounds how many. -/
def curvesOf : Nat → List Byte → List CurveRec
  | 0, _ => []
  | fuel + 1, b =>
    if b.length < 8 then []
    else
      let n := leAt b 2 2 * leAt b 4 1
      { kind := leAt b 0 1, index := leAt b 1 1, points := leAt b 2 2, bpp := leAt b 4 1, rsv := leAt b 5 3,
        data := sliceOf b 8 n } :: curvesOf fuel (b.drop (8 + (n + 3) / 4 * 4))

/-- Every curve of the image. -/
def Image.curves (im : Image) : List CurveRec :=
  let b := im.body Ty.CURVES 0
  curvesOf (b.length / 8) b

/-- The curve of a kind and index. -/
def Image.curve (im : Image) (kind index : Nat) : Option CurveRec :=
  im.curves.find? fun r => r.kind == kind && r.index == index

/-- Point `j` of a curve, as a number. -/
def CurveRec.point (r : CurveRec) (j : Nat) : Nat := leAt r.data (r.bpp * j) r.bpp

/-- One run of QUEUE_TABLE (R173): FIRST and its descriptors. -/
structure QueueRun where
  first : Nat
  count : Nat
  descs : List (List Byte)
  deriving DecidableEq, Repr

/-- The runs of a QUEUE_TABLE body; `fuel` bounds how many. -/
def runsOf : Nat → List Byte → List QueueRun
  | 0, _ => []
  | fuel + 1, b =>
    if b.length < 8 then []
    else
      let n := leAt b 4 4
      { first := leAt b 0 4, count := n, descs := recordsOf 32 (sliceOf b 8 (32 * n)) } ::
        runsOf fuel (b.drop (8 + 32 * n))

/-- The runs of the image's queue table. -/
def Image.runs (im : Image) : List QueueRun :=
  let b := im.body Ty.QUEUE_TABLE 0
  runsOf (b.length / 8) b

/-- Every queue that a run names, with its descriptor. -/
def Image.queues (im : Image) : List (Nat × List Byte) :=
  im.runs.flatMap fun r => r.descs.zipIdx.map fun d => (r.first + d.2, d.1)

/-! ### The images in place -/

/-- The image in force or admitted; an image with no sections stands in where there is none. -/
def Chip.image (c : Chip) : Image := c.loader.image.getD { header := [], sections := [] }

/-- The image that a unit's wiring comes from (R192). -/
def Chip.wiring (c : Chip) (old : Bool) : Image :=
  if old then c.loader.old.getD c.image else c.image

/-- The table in force of an image: that of the Vale fenced first at the choice, if the image holds one (R621). -/
def Chip.tableOf (c : Chip) (im : Image) : Table :=
  match c.sched.tableVale with
  | some n => (im.fallback n).getD im.primary
  | none => im.primary

/-- The schedule table in force. -/
def Chip.table (c : Chip) : Table := c.tableOf c.image

/-- RATE of the image in force. -/
def Chip.rate (c : Chip) : Nat := c.image.primary.rate

end Sys2Proof.Machine
end

