-- ==== Sys2Proof/Machine/OtpArray.lean ====
section
/-!
DEFINITION. Machine/OtpArray.lean: the one-time-programmable array as read (R578 to R595, R150, R508): regions, encodings,
the integrity check and what every region's fuses decode to.
-/
namespace Sys2Proof.Machine

/-! ### The array (R578) -/

/-- Fuses as a read finds them: those that read 1. -/
abbrev FuseRead := List (Nat × Bool)

/-- A fuse of a read. -/
def fuseAt (r : FuseRead) (a : Nat) : Bool := Sparse.get (fun _ => false) r a

/-- A fuse comes to read 1. -/
def burnFuse (r : FuseRead) (a : Nat) : FuseRead := Sparse.set (fun _ => false) r a true

/-- One region of the table of R578. -/
structure OtpRegion where
  base : Nat
  body : Nat
  append : Bool
  /-- Allowed encodings: 1 DOUBLE-OR, 2 TRIPLE-MAJORITY. -/
  encs : List Nat
  /-- Lifecycle codes in which it can be programmed. -/
  when_ : List Nat
  deriving DecidableEq, Repr

/-- The 16 regions. -/
def otpRegions : List OtpRegion := [
  ⟨0, 4, true, [2], []⟩, ⟨8, 12, false, [2], [1]⟩, ⟨24, 18, false, [2], [1]⟩, ⟨46, 178, false, [1, 2], [1]⟩,
  ⟨228, 42, false, [1], [1]⟩, ⟨274, 502, false, [1, 2], [1]⟩, ⟨780, 24, false, [2], [2]⟩, ⟨808, 24, false, [2], [2]⟩,
  ⟨836, 24, false, [2], [2]⟩, ⟨864, 6, true, [2], [2, 3]⟩, ⟨874, 66, true, [1], [2, 3]⟩, ⟨944, 4, true, [2], [2, 3]⟩,
  ⟨952, 8, false, [1, 2], [1]⟩, ⟨964, 16, false, [1, 2], [2, 3]⟩, ⟨984, 16, false, [1, 2], [2, 3]⟩,
  ⟨1004, 16, false, [1, 2], [2, 3]⟩]

/-- Region `g`. -/
def otpRegion (g : Nat) : OtpRegion := otpRegions.getD g ⟨1024, 0, false, [], []⟩

/-- First physical bit of a region, of its body, and the body's physical bits. -/
def otpBase (g : Nat) : Nat := 32 * (otpRegion g).base
def otpBody (g : Nat) : Nat := otpBase g + 128
def otpBodyBits (g : Nat) : Nat := 32 * (otpRegion g).body

/-- Region of a physical bit. -/
def otpRegionOf (a : Nat) : Option Nat :=
  (List.range 16).find? fun g => decide (otpBase g ≤ a) && decide (a < otpBody g + otpBodyBits g)

/-! ### Encodings (R579, R580) -/

/-- Logical capacity of a body of `bits` under an encoding. -/
def encCapacity (enc bits : Nat) : Nat := if enc = 1 then bits / 2 else if enc = 2 then bits / 3 else 0

/-- Physical copies of a logical bit: at `at0`, `n` apart, as many as the encoding keeps. -/
def copies (enc at0 n : Nat) : List Nat := if enc = 1 then [at0, at0 + n] else [at0, at0 + n, at0 + 2 * n]

/-- A logical bit as its copies read: OR of two, majority of three. -/
def decodeCopies (r : FuseRead) (as : List Nat) : Bool :=
  let ones := (as.filter (fuseAt r)).length
  if as.length = 2 then decide (1 ≤ ones) else decide (2 ≤ ones)

/-- The copies of a bit read differently. -/
def minorityCopies (r : FuseRead) (as : List Nat) : Bool :=
  let ones := (as.filter (fuseAt r)).length
  decide (0 < ones) && decide (ones < as.length)

/-- Copies of control fields: HEADER bit `i`, CRC bit `i`, SEAL, WL, RL. -/
def headerCopies (g i : Nat) : List Nat := copies 2 (otpBase g + i) 16
def crcCopies (g i : Nat) : List Nat := copies 1 (otpBase g + 48 + i) 32
def sealCopies (g : Nat) : List Nat := copies 2 (otpBase g + 112) 1
def wlCopies (g : Nat) : List Nat := copies 2 (otpBase g + 115) 1
def rlCopies (g : Nat) : List Nat := copies 2 (otpBase g + 118) 1

/-- A number from its bits, least significant first. -/
def bitsNat : List Bool → Nat
  | [] => 0
  | b :: bs => b.toNat + 2 * bitsNat bs

def otpHeader (r : FuseRead) (g : Nat) : Nat := bitsNat ((List.range 16).map fun i => decodeCopies r (headerCopies g i))
def otpCrc (r : FuseRead) (g : Nat) : Nat := bitsNat ((List.range 32).map fun i => decodeCopies r (crcCopies g i))
def otpSeal (r : FuseRead) (g : Nat) : Bool := decodeCopies r (sealCopies g)
def otpWl (r : FuseRead) (g : Nat) : Bool := decodeCopies r (wlCopies g)
def otpRl (r : FuseRead) (g : Nat) : Bool := decodeCopies r (rlCopies g)

/-- Copies of logical body bit `i` of a region under an encoding; region 10 has its own layout (R594). -/
def bodyCopies (g enc i : Nat) : List Nat :=
  if g = 10 then
    if i < 1024 then copies 1 (otpBody g + i) 1024 else copies 2 (otpBody g + 2048 + (i - 1024)) 16
  else copies enc (otpBody g + i) (encCapacity enc (otpBodyBits g))

/-- Logical bits of a region's body under an encoding. -/
def bodyCapacity (g enc : Nat) : Nat := if g = 10 then 1040 else encCapacity enc (otpBodyBits g)

/-- Any fuse of the region but SEAL reads 1. -/
def otpTouched (r : FuseRead) (g : Nat) : Bool :=
  r.any fun e => decide (otpBase g ≤ e.1) && decide (e.1 < otpBody g + otpBodyBits g) && !(sealCopies g).contains e.1 && e.2

/-- State of a region (R581): 0 BLANK, 1 INTERRUPTED, 2 SEALED, 3 APPEND. A fuse of SEAL that reads 1 alone makes it INTERRUPTED too
(log entry 120). -/
def otpState (r : FuseRead) (g : Nat) : Nat :=
  if (otpRegion g).append then 3 else if otpSeal r g then 2
  else if otpTouched r g || (sealCopies g).any (fuseAt r) then 1 else 0

/-- The encoding that the region's bits are read under: that of a SEALED header, or of an APPEND region. -/
def otpEnc (r : FuseRead) (g : Nat) : Nat :=
  if (otpRegion g).append then (otpRegion g).encs.headD 0
  else if otpState r g = 2 then otpHeader r g % 4 else 0

/-- Logical bit `i` of a region as the device uses it (R581). -/
def otpBit (r : FuseRead) (g i : Nat) : Bool :=
  let st := otpState r g
  let enc := otpEnc r g
  if (st = 2 ∨ st = 3) ∧ i < bodyCapacity g enc then decodeCopies r (bodyCopies g enc i) else false

/-- `n` logical bits from bit `i` on, as a number. -/
def otpNum (r : FuseRead) (g i n : Nat) : Nat := bitsNat ((List.range n).map fun k => otpBit r g (i + k))

/-- Bytes of a region, byte `k` at logical bits 8k to 8k + 7. -/
def otpBytes (r : FuseRead) (g n : Nat) : List Byte := (List.range n).map fun k => Byte.of (otpNum r g (8 * k) 8)

/-! ### Contents (R585 to R595) -/

/-- The lifecycle pattern T, F, D, R, V as a code of R150. -/
def lifecycleOf (r : FuseRead) : Option Nat :=
  match (List.range 5).map (otpBit r 0) with
  | [t, f, d, rr, v] =>
    let plain := match t, f, d, rr with
      | false, false, false, false => some 0
      | true, false, false, false => some 1
      | true, true, false, false => some 2
      | true, true, true, false => some 3
      | true, true, true, true => some 4
      | _, _, _, _ => none
    if v then plain.map fun _ => 5 else plain
  | _ => none

/-- Lifecycle code, BLANK for a pattern outside the table. -/
def lifecycleCode (r : FuseRead) : Nat := (lifecycleOf r).getD 0

/-- Index plus 1 of the highest set bit among the first `n` logical bits of a region; 0 when none is set (R592, R593). -/
def otpHighest (r : FuseRead) (g : Nat) : Nat → Nat
  | 0 => 0
  | n + 1 => if otpBit r g n then n + 1 else otpHighest r g n

/-- Gaps below the highest set bit (R592, R593). -/
def otpGaps (r : FuseRead) (g n : Nat) : Nat :=
  ((List.range (otpHighest r g n)).filter fun i => !otpBit r g i).length

/-- The rollback counter (R592). -/
def rollbackCounter (r : FuseRead) : Nat := otpHighest r 9 64

/-- Ceiling lowerings burned, and the fused ceiling (R593). -/
def loweringCount (r : FuseRead) : Nat := otpHighest r 11 7
def fusedCeiling (r : FuseRead) : Nat := 7 - loweringCount r

/-- A lens-calibration slot: consumed, valid, its 64 data bits (R594). -/
def slotFuses (s : Nat) : List Nat :=
  (List.range 64).flatMap (fun j => bodyCopies 10 1 (64 * s + j)) ++ bodyCopies 10 1 (1024 + s)
def slotUsed (r : FuseRead) (s : Nat) : Bool := (slotFuses s).any (fuseAt r)
def slotValid (r : FuseRead) (s : Nat) : Bool := otpBit r 10 (1024 + s)
def slotData (r : FuseRead) (s : Nat) : Nat := otpNum r 10 (64 * s) 64

/-- The slot in force: the highest-numbered valid one (R508). -/
def slotInForce (r : FuseRead) : Option Nat := ((List.range 16).filter (slotValid r)).getLast?

/-- DEV_SERIAL (R586). -/
def serialOf (r : FuseRead) : Nat := otpNum r 1 0 64

/-- Trim `k` of region 2 (R587). -/
def trimOf (r : FuseRead) (k : Nat) : Int := signedOf 16 (otpNum r 2 (16 * k) 16)

/-- Linearization trim of gain `g`, point `j` (R589), in 1/16 code. -/
def linTrim (r : FuseRead) (g j : Nat) : Int := signedOf 10 (otpNum r 4 (10 * (33 * g + j)) 10)

/-- The static defect map of region 5 (R590): (row, column) pairs. -/
def otpDefects (r : FuseRead) : List (Nat × Nat) :=
  (List.range (otpNum r 5 0 16)).map fun e =>
    (otpNum r 5 (32 * (e + 1) + 16) 13, otpNum r 5 (32 * (e + 1)) 13)

/-- The overlay words that the ROM patch entries write, in order (R588). -/
def romPatches (r : FuseRead) : List (Nat × Word) :=
  let n := min (otpNum r 3 0 7) (if otpEnc r 3 = 1 then 64 else 42)
  (List.range n).map fun e => (otpNum r 3 (32 + 44 * e) 12, Word.of (otpNum r 3 (44 + 44 * e) 32))

/-! ### Minority bits and the integrity check (R582 to R584) -/

/-- Minority bits and gaps of a region (R584, R592, R593). -/
def minorityBits (r : FuseRead) (g : Nat) : Nat :=
  let ctl := (List.range 16).map (headerCopies g) ++ (List.range 32).map (crcCopies g) ++
    [sealCopies g, wlCopies g, rlCopies g]
  let enc := otpEnc r g
  let body := if enc = 0 then [] else (List.range (bodyCapacity g enc)).map (bodyCopies g enc)
  ((ctl ++ body).filter (minorityCopies r)).length +
    (if g = 9 then otpGaps r 9 64 else if g = 11 then otpGaps r 11 7 else 0)

/-- The CRC-32 of a region's header and logical body (R582). -/
def regionCrc (header : Nat) (n : Nat) (bit : Nat → Bool) : Nat :=
  crc32 (leBytes 2 header ++ (List.range ((n + 7) / 8)).map fun k =>
    Byte.of (bitsNat ((List.range 8).map fun b => decide (8 * k + b < n) && bit (8 * k + b))))

/-- Region `g` passes its rows of R583. -/
def regionIntact (r : FuseRead) (g : Nat) : Bool :=
  if (otpRegion g).append then !otpSeal r g
  else if otpSeal r g then
    let h := otpHeader r g
    let enc := h % 4
    (otpRegion g).encs.contains enc && decide (h / 4 % 16 = g) && decide (h / 64 % 4 = 0) && decide (h / 256 = 1) &&
    decide (otpCrc r g = regionCrc h (bodyCapacity g enc) fun i => decodeCopies r (bodyCopies g enc i)) &&
    (if g = 6 ∨ g = 8 then otpRl r g else true)
  else true

/-- The start-up integrity check (R583). -/
def otpIntact (r : FuseRead) : Bool :=
  (lifecycleOf r).isSome && !otpWl r 0 && !otpRl r 0 && (List.range 16).all (regionIntact r)

/-! ### What the registers show (R605) -/

/-- The read that a region's contents in force come from (R578): its values hold from the exit from RESET_HOLD, or follow
each operation; those of regions 7 and 8 follow at the next load. -/
def Chip.otpInForce (c : Chip) (g : Nat) : FuseRead :=
  if g ≤ 6 ∨ g = 12 then c.otp.sensed
  else if g = 7 ∨ g = 8 then c.otp.loadRead
  else if g = 10 then c.otp.lensRead else c.otp.lastRead

/-- A load begins: the key regions as last read come into force (R578). -/
def Chip.keysInForce (c : Chip) : Chip := { c with otp := { c.otp with loadRead := c.otp.lastRead } }

/-- OTP_REGION[g]. -/
def Chip.otpRegionWord (c : Chip) (g : Nat) : Word :=
  let r := c.otp.lastRead
  let enc := if (otpRegion g).append then 0 else otpEnc r g
  Word.of (otpState r g + 4 * enc + 16 * (otpWl r g).toNat + 32 * (otpRl r g).toNat +
    64 * (c.otp.weakRegions.testBit g).toNat + 65536 * min 65535 (minorityBits r g))

/-- OTP_DATA[i] of the region that OTP_RD_SEL names. -/
def Chip.otpDataWord (c : Chip) (i : Nat) : Word :=
  let g := c.fld F.OTP_RD_SEL.REGION
  if g = 6 ∨ g = 8 ∨ otpRl c.otp.lastRead g = true then 0 else Word.of (otpNum (c.otpInForce g) g (32 * i) 32)

end Sys2Proof.Machine
end

