-- ==== Sys2Proof/Machine/Loop.lean ====
section
/-!
DEFINITION. Machine/Loop.lean: the focus and exposure loop (R492 to R499, R489), lens position to current (R500, R501),
the VCM driver (R502 to R507) and the privacy input (R510 to R515).
-/
namespace Sys2Proof.Machine

/-! ### The VCM driver (R501 to R507) -/

/-- A target of `ua` clamps in a range (R501). -/
def targetClamps (coarse : Bool) (ua : Int) : Bool :=
  let x := rne (ua * 32768) (fullScale coarse)
  decide (x < -32768) || decide (32767 < x)

/-- A target that clamps sets LOOP_EVENTS.TARGET_CLAMP; it is converted while the bridge drives (R501). -/
def Chip.vcmConvert (c : Chip) : Chip :=
  if c.loop.vcm.bridge = .driving ∧ targetClamps c.loop.vcm.coarse c.vcmTarget = true then
    c.raise F.LOOP_EVENTS.TARGET_CLAMP
  else c

/-- A current of `n`/32 768 µA lies within FINE: −60 000.000 to +59 998.169 µA (R505). -/
def withinFine (n : Int) : Bool := decide (-60000 * 32768 ≤ n) && decide (n ≤ 32767 * 60000)

/-- A range request (R505), from the owner of the driver. -/
def Chip.vcmRangeRequest (c : Chip) (coarse : Bool) : Chip :=
  let c := c.setBit F.VCM_CTRL.RANGE coarse
  let v := c.loop.vcm
  if v.bridge ≠ .driving ∨ v.coarse = coarse then c
  else
    let now := v.code * fullScale v.coarse
    if coarse = false ∧ (withinFine now && withinFine (c.vcmTarget * 32768)) = false then
      (c.raise F.LOOP_EVENTS.RANGE_REJECT).alertOnce Code.VCM_RANGE_REJECT noUnit 0
    else
      let code := clampInt (-32768) 32767 (rne now (fullScale coarse))
      c.setVcm { v with coarse := coarse, pos := code * fullScale coarse, handover := true }

/-- VCM_RANGE: a host write of VCM_CTRL.RANGE, ignored while the loop owns the driver. -/
def Chip.vcmRangeWrite (c : Chip) (coarse : Bool) : Chip :=
  if c.dev.open && !c.bit F.LOOP_STATUS.VCM_OWNER then c.vcmRangeRequest coarse else c

/-- VCM_RANGE. -/
def execVcmRange (coarse : Bool) (s : State) : Host.Outcome State Fault Refusal :=
  act (.vcmRange coarse) (fun _ c => c.vcmRangeWrite coarse) s

/-- The bridge starts from Z: code 0, in the range of VCM_CTRL.RANGE (R503). -/
def Chip.vcmDrive (c : Chip) : Chip :=
  let v := c.loop.vcm
  (c.setVcm { v with bridge := .driving, pos := 0, coarse := c.bit F.VCM_CTRL.RANGE, handover := false,
                     waiting := false, used := true }).vcmConvert

/-- An enable that is not accepted (R503). -/
def Chip.vcmRefuse (c : Chip) : Chip := (c.raise F.LOOP_EVENTS.ENABLE_REJECTED).alert Code.VCM_ENABLE_REJECT noUnit 0

/-- VCM_ENABLE: a write of VCM_CTRL.ENABLE = 1 (R503); a state that does not act on the register reports it (log entry 119). -/
def Chip.vcmEnable (c : Chip) : Chip :=
  if c.dev.open then
    let c := c.raise F.VCM_CTRL.ENABLE
    let v := c.loop.vcm
    if c.dev.ticking && v.supplyOk then
      match v.bridge with
      | .z => c.vcmDrive
      | .driving => c
      | .rampOff 1 =>
        let c := (c.setVcm { v with bridge := .driving, used := true }).vcmConvert
        c.vcmRangeRequest (c.bit F.VCM_CTRL.RANGE)
      | .rampOff _ => c.setVcm { v with waiting := true, used := true }
    else c.vcmRefuse
  else if c.dev.portsAnswer then c.vcmRefuse
  else c

/-- VCM_ENABLE. -/
def execVcmEnable (s : State) : Host.Outcome State Fault Refusal := act .vcmEnable (fun _ c => c.vcmEnable) s

/-- VCM_DISABLE: a write of VCM_CTRL.ENABLE = 0 (R504); an enable that waits is withdrawn. -/
def Chip.vcmDisable (c : Chip) : Chip :=
  if c.dev.open then
    let c := c.set F.VCM_CTRL.ENABLE 0
    let v := c.loop.vcm
    if v.bridge = .driving then
      (c.set F.VCM_STATUS.Z_CAUSE 1).setVcm { v with bridge := .rampOff 1, handover := false }
    else c.setVcm { v with waiting := false }
  else c

/-- VCM_DISABLE. -/
def execVcmDisable (s : State) : Host.Outcome State Fault Refusal := act .vcmDisable (fun _ c => c.vcmDisable) s

/-- VCM_TARGET_WRITE: a host write of VCM_TARGET (R504). -/
def Chip.vcmTargetWrite (c : Chip) (ua : Int) : Chip :=
  if c.dev.open then
    let c := c.set F.VCM_TARGET.UA (patternOf 24 ua)
    if c.bit F.LOOP_STATUS.VCM_OWNER then c else (c.setVcm c.loop.vcm).vcmConvert
  else c

/-- VCM_TARGET_WRITE. -/
def execVcmTargetWrite (ua : Int) (s : State) : Host.Outcome State Fault Refusal :=
  act (.vcmTargetWrite ua) (fun _ c => c.vcmTargetWrite ua) s

/-- A position moved toward a goal by at most `d`. -/
def approach (pos goal d : Int) : Int :=
  if pos < goal then min goal (pos + d) else max goal (pos - d)

/-- What VCM_SLEW moves the position by in one update of 312.5 ns, in 1/FS of a code (R504, R516). -/
def Chip.slewStep (c : Chip) : Int := Int.ofNat (max 1 (c.fld F.VCM_SLEW.MA_PER_MS)) * 10240

/-- The bridge reaches Z at the end of a ramp; the target in force becomes 0, and a waiting enable starts it again. -/
def Chip.vcmRampDone (c : Chip) : Chip :=
  let v := c.loop.vcm
  let c := c.setVcm { v with bridge := .z, pos := 0, target := 0, waiting := false }
  if v.waiting && c.dev.ticking && v.supplyOk then c.vcmDrive else c

/-- VCM_UPDATE: the ramp toward the target in force, or of a host disable (R504). -/
def Chip.vcmUpdate (c : Chip) : Chip :=
  let v := c.loop.vcm
  match v.bridge with
  | .driving =>
    if v.handover then c
    else c.setVcm { v with pos := approach v.pos (dacCode v.coarse c.vcmTarget * fullScale v.coarse) c.slewStep }
  | .rampOff 1 =>
    let c' := c.setVcm { v with pos := approach v.pos 0 c.slewStep }
    if c'.loop.vcm.pos = 0 then c'.vcmRampDone else c'
  | _ => c

/-- VCM_UPDATE. -/
def execVcmUpdate (s : State) : Host.Outcome State Fault Refusal := act .vcmUpdate (fun _ c => c.vcmUpdate) s

/-- HANDOVER_END: the ramp resumes toward the target, converted into the new range (R505). -/
def Chip.handoverEnd (c : Chip) : Chip :=
  if c.loop.vcm.handover then (c.setVcm { c.loop.vcm with handover := false }).vcmConvert else c

/-- HANDOVER_END. -/
def execHandoverEnd (s : State) : Host.Outcome State Fault Refusal := act .handoverEnd (fun _ c => c.handoverEnd) s

/-- VCM_TRACK (R506): outside a handover only. -/
def Chip.vcmTrack (c : Chip) : Chip :=
  if c.loop.vcm.bridge = .driving ∧ c.loop.vcm.handover = false then
    (c.vcmZ 5).alert Code.VCM_TRACK noUnit 0
  else c

/-- VCM_TRACK. -/
def execVcmTrack (s : State) : Host.Outcome State Fault Refusal := act .vcmTrack (fun _ c => c.vcmTrack) s

/-- VCM_OVERCURRENT (R506). -/
def Chip.vcmOvercurrent (c : Chip) : Chip :=
  if c.loop.vcm.bridge = .driving then (c.vcmZ 6).alert Code.VCM_TRACK noUnit 0 else c

/-- VCM_OVERCURRENT. -/
def execVcmOvercurrent (s : State) : Host.Outcome State Fault Refusal :=
  act .vcmOvercurrent (fun _ c => c.vcmOvercurrent) s

/-- VDDVCM lies above its range: a fall from there is a fall below 3.135 V as much as one from its range. -/
def Chip.vddvcmHigh (c : Chip) : Bool := (c.supply.rails.getD 5 (Rail.nominal 3300)).state == 2

/-- VDDVCM has fallen below 3.135 V (R53, R506): from where it was not below before, it is reported. -/
def Chip.vddvcmFalls (c : Chip) (fell : Bool) : Chip :=
  let c := { c with loop := { c.loop with vcm := { c.loop.vcm with supplyOk := false } } }.vcmZ 4
  if c.loop.vcm.used && fell then c.alert Code.VCM_SUPPLY noUnit 0 else c

/-- VDDVCM_LOW. -/
def Chip.vddvcmLow (c : Chip) : Chip := c.vddvcmFalls (c.loop.vcm.supplyOk || c.vddvcmHigh)

/-- VDDVCM_LOW. -/
def execVddvcmLow (s : State) : Host.Outcome State Fault Refusal := act .vddvcmLow (fun _ c => c.vddvcmLow) s

/-- VCM_RAMP_END: a hardware ramp reaches 0 mA (R51, R148). -/
def Chip.vcmRampEnd (c : Chip) : Chip :=
  match c.loop.vcm.bridge with
  | .rampOff 2 | .rampOff 3 => c.vcmRampDone
  | _ => c

/-- VCM_RAMP_END. -/
def execVcmRampEnd (s : State) : Host.Outcome State Fault Refusal := act .vcmRampEnd (fun _ c => c.vcmRampEnd) s

/-! ### Lens position to current (R500) -/

/-- Point `i` of the VCM response curve. -/
def responsePoint (curve : Option CurveRec) (i : Nat) : Int :=
  match curve with
  | some r => Int.ofNat (r.point i)
  | none => Int.ofNat (min (64 * i) 65535)

/-- The drive current of position `p`. -/
def lensCurrent (curve : Option CurveRec) (inf macro_ : Int) (p : Nat) : Int :=
  let i := p / 64
  let f := Int.ofNat (p % 64)
  let lo := responsePoint curve i
  let h := lo + ((responsePoint curve (i + 1) - lo) * f + 32) / 64
  inf + rne ((macro_ - inf) * h) 65535

/-- I_INF and I_MACRO: of the slot in force, else of VCM_DEF_INF and VCM_DEF_MACRO (R500, R508). -/
def Chip.lensEnds (c : Chip) : Int × Int :=
  match slotInForce c.otp.lensRead with
  | some s =>
    let d := slotData c.otp.lensRead s
    (signedOf 24 d, signedOf 24 (d / 0x1000000))
  | none => (signedOf 24 (c.live F.VCM_DEF_INF.UA), signedOf 24 (c.live F.VCM_DEF_MACRO.UA))

/-! ### Loop sets (R492 to R499) -/

/-- A binding of STATE_MACHINE instance 1. -/
structure Binding where
  unitId : Nat
  queue : Nat
  nMax : Nat
  rsv : Nat
  deriving DecidableEq, Repr

/-- The bindings of an image (R492). -/
def Image.bindings (im : Image) : List Binding :=
  let b := im.body Ty.STATE_MACHINE 1
  (recordsOf 8 (sliceOf b 8 (8 * leAt b 2 1))).map fun r =>
    { unitId := leAt r 0 2, queue := leAt r 2 2, nMax := leAt r 4 1, rsv := leAt r 5 3 }

/-- A loop element is malformed (R494). -/
def elementMalformed (e : List Byte) : Bool :=
  decide (1 < leAt e 1 1) ||
  match leAt e 0 1 with
  | 1 =>
    decide (1 < leAt e 4 1) || decide (2 < leAt e 5 1) || leAt e 6 2 != 0 || leAt e 12 4 != 0 ||
    (if leAt e 4 1 = 0 then decide (sleAt e 8 4 < -150000) || decide (150000 < sleAt e 8 4) else decide (65535 < leAt e 8 4))
  | 2 => decide (0xFFFFFF < leAt e 4 4) || decide (0xFFFFFF < leAt e 8 4) || decide (3 < leAt e 12 1) || leAt e 13 3 != 0
  | 3 => false
  | _ => true

/-- Bytes of an element. -/
def bytesOf (e : List MByte) : List Byte := e.map fun b : MByte => b.v

/-- An element carries a poison mark. -/
def poisonedEl (e : List MByte) : Bool := e.any fun b : MByte => b.p

/-- Pop up to `n` elements for the frame served (R495): the set, and the chip. -/
def Chip.loopPop (q frame : Nat) : Nat → Chip → List (List MByte) × Chip
  | 0, c => ([], c)
  | n + 1, c =>
    let (st, el, c) := (c.countFlits 0 2).qPop 10 q
    if st = 6 then ([], c)
    else if st = 0 ∨ st = 8 then
      let stale := !(poisonedEl ((el.drop 2).take 2)) && decide (leAt (bytesOf el) 2 2 ≠ frame % 65536)
      let c := if stale then c.raise F.LOOP_EVENTS.STALE else c
      let (es, c) := Chip.loopPop q frame n c
      (if stale then es else el :: es, c)
    else Chip.loopPop q frame n c

/-- A bound Control unit ends: its elements are popped and wait for the judgement (R495). Nothing is popped in the drain
tick (R499). -/
def Chip.loopCollect (c : Chip) (im : Image) (unit frame lane edge gate : Nat) (incomplete : Bool) : Chip :=
  match im.bindings.find? fun b => b.unitId == unit with
  | none => c
  | some b =>
    if c.sched.drain then c
    else
      let (es, c) := Chip.loopPop b.queue frame b.nMax c
      let set : LoopSet :=
        { unit := unit, frame := frame, lane := lane, incomplete := incomplete, edge := edge, gate := gate, elements := es }
      { c with loop := { c.loop with waiting := c.loop.waiting ++ [set] } }

/-- The result code of a set (R496). -/
def LoopSet.result (w : LoopSet) : Nat :=
  if w.elements.any poisonedEl then 2
  else if w.incomplete then 3
  else if w.elements.any fun e => elementMalformed (bytesOf e) then 4
  else if w.elements.isEmpty then 5
  else 1

/-- Change the metadata of a frame in the pipeline. -/
def Chip.metaUpd (c : Chip) (frame : Nat) (f : FrameMeta → FrameMeta) : Chip :=
  { c with egress := { c.egress with metas := c.egress.metas.map (fun m : FrameMeta => if m.frame = frame then f m else m) } }

/-- The last element of a kind (R497): of LENS and EXPOSURE, kinds 1 and 2, the last without KEEP. -/
def LoopSet.last (w : LoopSet) (kind : Nat) : Option (List Byte) :=
  ((w.elements.map bytesOf).filter fun e => leAt e 0 1 == kind && (kind == 3 || leAt e 1 1 == 0)).getLast?

/-- A LENS element takes effect (R497, R500): the range request, then the target (R507), which a bridge at Z keeps for its next
enable (R503). -/
def Chip.applyLens (c : Chip) (e : List Byte) : Chip :=
  let ends := c.lensEnds
  let ua := if leAt e 4 1 = 0 then sleAt e 8 4 else lensCurrent (c.image.curve 3 0) ends.1 ends.2 (leAt e 8 4)
  let c := match leAt e 5 1 with
    | 1 => c.vcmRangeRequest false
    | 2 => c.vcmRangeRequest true
    | _ => c
  (c.setVcm { c.loop.vcm with target := ua }).vcmConvert

/-- An EXPOSURE element writes the exposure registers, as the loop sequencer (R497, R207). -/
def Chip.applyExposure (c : Chip) (e : List Byte) : Chip :=
  let c := (c.set F.EXP_LONG.CYCLES (leAt e 4 4)).set F.EXP_SHORT.CYCLES (leAt e 8 4)
  (c.set F.EXP_GAIN.L_GAIN (leAt e 12 1 % 2)).set F.EXP_GAIN.S_GAIN (leAt e 12 1 / 2 % 2)

/-- t_A − t_R of a set applied now, in cycles of 122.88 MHz, to the nearest as in the spec's worked case (R489, log entry 115). -/
def Chip.controlLatency (c : Chip) (w : LoopSet) : Nat :=
  (rne (Int.ofNat ((c.now - w.edge) * 24576) - Int.ofNat (w.gate * 10000)) 200000).toNat

/-- The latency of an applied set is measured and shown (R489). -/
def Chip.measureControl (c : Chip) (w : LoopSet) : Chip :=
  let lat := min 0xFFFFFF (c.controlLatency w)
  let c := (c.set F.CTRL_LAT_LAST.CYCLES lat).set F.CTRL_LAST_FRAME.FRAME w.frame
  let c := c.set F.CTRL_LAT_PEAK.CYCLES (max lat (c.fld F.CTRL_LAT_PEAK.CYCLES))
  let c := (c.countWrap F.CTRL_COUNTS.APPLIED 1).metaUpd w.frame fun m => { m with ctrlLat := lat }
  if 147456 < lat then
    let c := (c.count F.CTRL_COUNTS.LATE 1).raise F.Q_EVENTS.CTRL_LATE
    (c.alert Code.CONTROL_LATE noUnit 0).metaUpd w.frame fun m => { m with flags := m.flags ||| 16 }
  else c

/-- A set is applied (R497). -/
def Chip.loopApplied (c : Chip) (w : LoopSet) : Chip :=
  let c := match w.last 1 with
    | some e => if c.bit F.LOOP_STATUS.VCM_OWNER then c.applyLens e else c
    | none => c
  let c := match w.last 2 with
    | some e => if c.bit F.PIX_STATUS.EXP_OWNER then c.applyExposure e else c
    | none => c
  let c := match w.last 3 with
    | some e =>
      let rest := c.loop.reports.filter fun r : Nat × List Byte => r.1 != w.frame
      { c with loop := { c.loop with reports := rest ++ [(w.frame, sliceOf e 4 12)] } }
    | none => c
  let c := ((c.set F.LOOP_FRAME.FRAME w.frame).raise F.LOOP_EVENTS.APPLIED).measureControl w
  (c.set F.LOOP_STATUS.HELD_RUN 0).setBit F.LOOP_STATUS.STALLED false

/-- A set is not applied (R498). -/
def Chip.loopHeld (c : Chip) (result : Nat) : Chip :=
  let c :=
    if result = 5 then c
    else ((c.raise F.LOOP_EVENTS.HELD).alert Code.LOOP_HOLD noUnit result).count F.CTRL_COUNTS.NOT_APPLIED 1
  let before := c.fld F.LOOP_STATUS.HELD_RUN
  let c := c.count F.LOOP_STATUS.HELD_RUN 1
  let limit := c.live F.LOOP_CTRL.HOLD_LIMIT
  if limit ≠ 0 ∧ limit ≤ c.fld F.LOOP_STATUS.HELD_RUN ∧ (before < limit ∨ c.bit F.LOOP_STATUS.STALLED = false) then
    ((c.raise F.LOOP_STATUS.STALLED).raise F.LOOP_EVENTS.STALLED).alert Code.LOOP_STALLED noUnit 0
  else c

/-- LOOP_APPLY: the oldest waiting set is judged, then applied or held (R496). -/
def Chip.loopApply (c : Chip) : Chip :=
  if c.dev.ticking then
    match c.loop.waiting with
    | [] => c
    | w :: rest =>
      let c := { c with loop := { c.loop with waiting := rest } }.set F.LOOP_STATUS.LAST_RESULT w.result
      if w.result = 1 then c.loopApplied w else c.loopHeld w.result
  else c

/-- LOOP_APPLY. -/
def execLoopApply (s : State) : Host.Outcome State Fault Refusal := act .loopApply (fun _ c => c.loopApply) s

/-- Entry to RUN: HEAD = TAIL in every bound queue, and the loop's results restart (R499, R490). -/
def Chip.loopEnterRun (c : Chip) : Chip :=
  let c := c.image.bindings.foldl (fun c b => c.qClear b.queue) c
  let c := { c with loop := { c.loop with waiting := [], reports := [] } }
  let c := (c.set F.LOOP_STATUS.LAST_RESULT 0).set F.LOOP_STATUS.HELD_RUN 0
  (c.put A.CTRL_LAT_PEAK 0).put A.CTRL_COUNTS 0

/-! ### Privacy (R510 to R515) -/

/-- The crop rows that a frame has still to send are cut for privacy (R568). -/
def CsiFrame.privCut (f : CsiFrame) : CsiFrame := { f with cutPriv := f.cutPriv + f.rowsLeft, privStop := true }

/-- Privacy comes into effect: STROBE falls, and crop rows stop leaving (R510, R568). -/
def Chip.privEngage (c : Chip) : Chip :=
  let c := c.strobeLow
  let c := { c with pixel := { c.pixel with strobePriv := true } }
  let cut := c.host.csi.any fun f : CsiFrame => f.rowsLeft != 0
  let c := if cut then c.raise F.EGR_EVENTS.PRIV_CUT else c
  { c with host := { c.host with csi := c.host.csi.map CsiFrame.privCut } }

/-- Privacy in effect follows the last agreed state and the fault latch (R512, R515). -/
def Chip.privUpdate (c : Chip) : Chip :=
  let eff := c.bit F.PRIV_STATUS.AGREED || c.bit F.PRIV_STATUS.FAULT
  if eff = c.bit F.PRIV_STATUS.EFFECTIVE then c
  else
    let c := (c.setBit F.PRIV_STATUS.EFFECTIVE eff).raise (if eff then F.PRIV_EVENTS.ENGAGED else F.PRIV_EVENTS.RELEASED)
    if eff then c.privEngage else c

/-- DISC_TIME as it acts (R516). -/
def Chip.discTime (c : Chip) : Nat := min 250 (max 1 (c.fld F.PRIV_CFG.DISC_TIME))

/-- PRIV_SAMPLE: the island samples PRIV_A and PRIV_B (R60, R512). -/
def Chip.privSample (c : Chip) (a b : Bool) : Chip :=
  if c.dev = .off then c
  else
    let c := (c.setBit F.PRIV_STATUS.PIN_A a).setBit F.PRIV_STATUS.PIN_B b
    if a != b then
      let c := (c.setBit F.PRIV_STATUS.AGREED a).set F.PRIV_STATUS.DISC_COUNT 0
      (c.count F.PRIV_STATUS.AGREE_RUN 1).privUpdate
    else
      let c := ((c.set F.PRIV_STATUS.AGREE_RUN 0).count F.PRIV_STATUS.DISC_COUNT 1).raise F.PRIV_EVENTS.DISAGREE
      if c.discTime ≤ c.fld F.PRIV_STATUS.DISC_COUNT ∧ c.bit F.PRIV_STATUS.FAULT = false then
        (((c.raise F.PRIV_STATUS.FAULT).raise F.PRIV_EVENTS.FAULT).alert Code.PRIV_FAULT noUnit 0).privUpdate
      else c.privUpdate

/-- PRIV_SAMPLE. -/
def execPrivSample (a b : Bool) (s : State) : Host.Outcome State Fault Refusal :=
  act (.privSample a b) (fun _ c => c.privSample a b) s

/-- PRIV_CLEAR: a write of PRIV_CTRL with CLEAR (R513). -/
def Chip.privClear (c : Chip) (key : Nat) : Chip :=
  if key = 0x5052 ∧ c.dev.portsAnswer = true then
    if c.dev.open = true ∧ c.discTime ≤ c.fld F.PRIV_STATUS.AGREE_RUN then
      (c.setBit F.PRIV_STATUS.FAULT false).privUpdate
    else c.raise F.PRIV_EVENTS.CLEAR_REJECTED
  else c

/-- PRIV_CLEAR. -/
def execPrivClear (key : Nat) (s : State) : Host.Outcome State Fault Refusal :=
  act (.privClear key) (fun _ c => c.privClear key) s

/-- PRIV_CFG_WRITE: a write of DISC_TIME, acted on only in HOLD (R514). -/
def Chip.privCfgWrite (c : Chip) (t : Nat) : Chip := if c.dev = .hold then c.set F.PRIV_CFG.DISC_TIME t else c

/-- PRIV_CFG_WRITE. -/
def execPrivCfgWrite (t : Nat) (s : State) : Host.Outcome State Fault Refusal :=
  act (.privCfgWrite t) (fun _ c => c.privCfgWrite t) s

end Sys2Proof.Machine
end

