-- ==== Sys2Proof/Machine/Pixel.lean ====
section
/-!
DEFINITION. Machine/Pixel.lean: readout geometry (R199 to R205, R209), exposures (R206 to R208, R212), STROBE (R213 to R216,
R510), TRIG (R217 to R219) and dark-current offsets (R220, R221).
-/
namespace Sys2Proof.Machine

/-! ### Readout geometry -/

/-- The READOUT section of an image (R209). -/
structure Readout where
  mode : Nat
  sampleSet : Nat
  rowTime : Nat
  readStart : Nat
  lead : Nat
  /-- RATE of the image. -/
  rate : Nat
  deriving DecidableEq, Repr

/-- The readout of an image. -/
def Image.readout (im : Image) : Readout :=
  let b := im.body Ty.READOUT 0
  { mode := leAt b 0 1, sampleSet := leAt b 1 1, rowTime := leAt b 2 2, readStart := leAt b 4 2, lead := leAt b 6 2,
    rate := im.primary.rate }

namespace Readout

/-- Samples N of a row time (R199). -/
def phases (r : Readout) : Nat := match r.sampleSet with | 0 => 1 | 1 => 2 | 2 => 2 | _ => 3

/-- The sample set has a short exposure. -/
def short (r : Readout) : Bool := r.sampleSet == 2 || r.sampleSet == 3

/-- BIN2 (R200). -/
def binned (r : Readout) : Bool := r.mode == 1

/-- Exposure read in a phase: true for the short one. -/
def phaseShort (r : Readout) (p : Nat) : Bool := r.short && p + 1 == r.phases

/-- P_S in TERRACE cycles. -/
def shortPhase (r : Readout) : Nat := 256 * (r.phases - 1)

/-- N_RT, the row time of active row 0, OB row times, columns and rows (R200, R202). -/
def rowTimes (r : Readout) : Nat := if r.binned then 3106 else 6210
def firstActive (r : Readout) : Nat := if r.binned then 34 else 66
def obRows (r : Readout) : Nat := if r.binned then 32 else 64
def width (r : Readout) : Nat := if r.binned then 4096 else 8192
def rows (r : Readout) : Nat := if r.binned then 3072 else 6144

/-- t_RS in cycles of 2 457.6 MHz (R201, R204). -/
def startVco (r : Readout) : Nat := r.readStart * slotCycles r.rate * 20

/-- Declared readout end of active row `y`, in cycles of 2 457.6 MHz (R201). -/
def rowEndVco (r : Readout) (y : Nat) : Nat := r.startVco + (r.firstActive + y + 1) * r.rowTime * 12

/-- EXP_MAX_L and EXP_MAX_S in TERRACE cycles (R205). -/
def expMaxL (r : Readout) : Int :=
  if r.short then Int.ofNat (r.lead * r.rowTime) - Int.ofNat r.shortPhase - 128 else Int.ofNat (r.startVco / 12)
def expMaxS (r : Readout) : Int :=
  if r.short then (Int.ofNat r.startVco - Int.ofNat (r.lead * r.rowTime * 12) + Int.ofNat (r.shortPhase * 12)) / 12 else 0

/-- Row time `k` is a reference row time. -/
def isReference (r : Readout) (k : Int) : Bool :=
  k == Int.ofNat r.firstActive - 2 || k == Int.ofNat r.firstActive - 1

/-- Row index of the row read in row time `k`: an OB row, or an active row; none for a reference row time or outside the
readout. The flag says that it is an active row. -/
def rowAt (r : Readout) (k : Int) : Option (Bool × Nat) :=
  if k < 0 ∨ Int.ofNat r.rowTimes ≤ k ∨ r.isReference k = true then none
  else if k < Int.ofNat r.obRows then some (false, k.toNat)
  else some (true, k.toNat - r.firstActive)

/-- Side of the mosaic kernel (R197). -/
def kernel (mosaic : Nat) : Nat := if mosaic = 0 then 2 else 4

end Readout

/-- The registers that show an image's readout (R222). -/
def Chip.showReadout (c : Chip) (r : Readout) : Chip :=
  let c := (c.set F.READOUT_INFO.MODE r.mode).set F.READOUT_INFO.SAMPLE_SET r.sampleSet
  let c := (c.set F.READOUT_INFO.READ_START r.readStart).set F.READOUT_INFO.ROW_TIME r.rowTime
  let c := c.set F.READOUT_LEAD.SHORT_LEAD r.lead
  (c.set F.EXP_MAX_L.CYCLES r.expMaxL.toNat).set F.EXP_MAX_S.CYCLES r.expMaxS.toNat

/-! ### Exposures latched at a tick edge (R206, R208) -/

/-- A pending exposure as latched, and whether it was clamped. -/
def latchExposure (pending : Nat) (most : Int) : Nat × Bool :=
  if pending < 16 then (16, true) else if most < Int.ofNat pending then (most.toNat, true) else (pending, false)

/-- The exposure set of the tick's frame is latched. -/
def Chip.latchExposures (c : Chip) (exposed : Bool) : Chip :=
  let r := c.image.readout
  let l := if exposed then latchExposure (c.live F.EXP_LONG.CYCLES) r.expMaxL else (16, false)
  let s := if exposed then latchExposure (c.live F.EXP_SHORT.CYCLES) r.expMaxS else (16, false)
  let c := { c with pixel := { c.pixel with gains := c.live F.EXP_GAIN.L_GAIN + 2 * c.live F.EXP_GAIN.S_GAIN } }
  let c := if l.2 then c.raise F.PIX_EVENTS.EXP_CLAMP_L else c
  let c := (c.set F.EXP_FORCE_L.CYCLES l.1).set F.EXP_FORCE_L.GAIN
    (if r.sampleSet = 0 ∨ r.sampleSet = 2 then c.live F.EXP_GAIN.L_GAIN else 0)
  if r.short then
    let c := if s.2 then c.raise F.PIX_EVENTS.EXP_CLAMP_S else c
    (c.set F.EXP_FORCE_S.CYCLES s.1).set F.EXP_FORCE_S.GAIN (c.live F.EXP_GAIN.S_GAIN)
  else c.put A.EXP_FORCE_S 0

/-! ### STROBE -/

/-- STROBE's exposure in force has rows FIRST to LAST within the frame, and a mode other than OFF (R213). -/
def Chip.strobeActs (c : Chip) : Bool :=
  let m := c.live F.PIX_CTRL.STROBE_MODE
  (m == 1 || m == 2) && decide (c.live F.STROBE_ROWS.FIRST ≤ c.live F.STROBE_ROWS.LAST) &&
    decide (c.live F.STROBE_ROWS.LAST < c.image.readout.rows) &&
    !(c.liveBit F.PIX_CTRL.STROBE_EXP && !c.image.readout.short)

/-- A COMMON window of the frame is empty (R214): the close of row FIRST falls at or before the open of row LAST. -/
def Chip.strobeEmpty (c : Chip) : Bool :=
  let e := if c.liveBit F.PIX_CTRL.STROBE_EXP then c.fld F.EXP_FORCE_S.CYCLES else c.fld F.EXP_FORCE_L.CYCLES
  decide (e ≤ (c.live F.STROBE_ROWS.LAST - c.live F.STROBE_ROWS.FIRST) * c.image.readout.rowTime)

/-- STROBE may rise in the frame in progress (R216, R510). -/
def Chip.strobeAllowed (c : Chip) : Bool :=
  c.dev.ticking && c.bit F.PIX_STATUS.ACTIVE && c.bit F.PIX_STATUS.EXPOSED && c.strobeActs && !c.pixel.strobePriv &&
    !c.pixel.strobeNone

/-- An exposure edge of an active row at which STROBE rises, or falls (R213). -/
def Chip.strobeRises (c : Chip) (open_ : Bool) (short : Bool) (row : Nat) : Bool :=
  open_ && short == c.liveBit F.PIX_CTRL.STROBE_EXP &&
    row == (if c.live F.PIX_CTRL.STROBE_MODE = 1 then c.live F.STROBE_ROWS.FIRST else c.live F.STROBE_ROWS.LAST)
def Chip.strobeFalls (c : Chip) (open_ : Bool) (short : Bool) (row : Nat) : Bool :=
  !open_ && short == c.liveBit F.PIX_CTRL.STROBE_EXP &&
    row == (if c.live F.PIX_CTRL.STROBE_MODE = 1 then c.live F.STROBE_ROWS.LAST else c.live F.STROBE_ROWS.FIRST)

/-- EXPOSURE_EDGE: a reset or transfer pulse is placed, `ps` picoseconds after the present nanosecond, and STROBE follows (R203,
R212, R213). -/
def Chip.exposureEdge (c : Chip) (e : Edge) (row ps : Nat) : Chip :=
  let r := c.image.readout
  let open_ := e == .longOpen || e == .shortOpen
  let short := e == .shortOpen || e == .shortClose
  if !(c.dev.ticking && c.bit F.PIX_STATUS.ACTIVE) || (short && !r.short) || decide (r.rows ≤ row) then c
  else
    let p := c.pixel
    let p := match e with
      | .longOpen => { p with openLong := p.openLong + 1 }
      | .longClose => { p with openLong := p.openLong - 1 }
      | .shortOpen => { p with openShort := p.openShort + 1 }
      | .shortClose => { p with openShort := p.openShort - 1 }
    let p := if e = .longOpen ∧ row = 0 then { p with startStamp := c.stampAt (1000 * ps) } else p
    let p := if c.strobeRises open_ short row && c.strobeAllowed then { p with strobe := true } else p
    let p := if c.strobeFalls open_ short row then { p with strobe := false } else p
    let c := { c with pixel := p }
    if e = .longOpen ∧ row = 0 then c.metaUpd (c.fld F.TICK_FRAME.FRAME) fun m => { m with stamp := c.stampAt (1000 * ps) } else c

/-- EXPOSURE_EDGE. -/
def execExposureEdge (e : Edge) (row : Nat × Nat) (s : State) : Host.Outcome State Fault Refusal :=
  act (.exposureEdge e row) (fun _ c => c.exposureEdge e row.1 row.2) s

/-- STROBE_CUT: STROBE_MAX expires while STROBE is high (R215). -/
def Chip.strobeCutNow (c : Chip) : Chip :=
  if c.pixel.strobe && c.live F.STROBE_MAX.US != 0 then
    let c := { c.strobeLow with pixel := { c.strobeLow.pixel with strobeCut := true } }.raise F.PIX_EVENTS.STROBE_CUT
    c.metaUpd (c.fld F.TICK_FRAME.FRAME) fun m => { m with flags := m.flags ||| 64 }
  else c

/-- STROBE_CUT. -/
def execStrobeCut (s : State) : Host.Outcome State Fault Refusal := act .strobeCut (fun _ c => c.strobeCutNow) s

/-- STROBE at a tick edge: low, with the frame's decision of R214 made. -/
def Chip.strobeEdge (c : Chip) : Chip :=
  let none_ := c.bit F.PIX_STATUS.ACTIVE && c.bit F.PIX_STATUS.EXPOSED && c.strobeActs &&
    c.live F.PIX_CTRL.STROBE_MODE == 2 && c.strobeEmpty
  let p := { c.pixel with strobe := false, strobeCut := false, strobeNone := none_,
                          strobePriv := c.bit F.PRIV_STATUS.EFFECTIVE }
  let c := { c with pixel := p }
  if none_ then c.raise F.PIX_EVENTS.STROBE_NONE else c

/-! ### TRIG -/

/-- TRIG_MODE as it acts: between an entry to RUN and its first tick edge, the pending mode (R219). -/
def Chip.trigMode (c : Chip) : Nat :=
  if c.sched.starting then c.fld F.PIX_CTRL.TRIG_MODE else c.live F.PIX_CTRL.TRIG_MODE

/-- TRIG_EDGE: a rising edge, `ps` picoseconds after the present nanosecond, whose high level lasts `ns` (R217, R218). -/
def Chip.trigEdge (c : Chip) (ns ps : Nat) : Chip :=
  if c.dev.ticking && (c.trigMode == 1 || c.trigMode == 2) && decide (20 ≤ ns) then
    let p := c.pixel
    { c with pixel := { p with trigEdges := min 65535 (p.trigEdges + 1), trigSince := some ((p.trigSince.map (·.1)).getD c.now, c.now),
                               trigFirst := if p.trigEdges = 0 then c.stampAt (1000 * ps) else p.trigFirst } }
  else c

/-- TRIG_EDGE. -/
def execTrigEdge (high : Nat × Nat) (s : State) : Host.Outcome State Fault Refusal :=
  act (.trigEdge high) (fun _ c => c.trigEdge high.1 high.2) s

/-- The decision of GATE at the start of slot TRIG_CFG.LATCH (R219): an edge accepted in the TICK cycle in which the slot begins
counts for the decision after it (its nanosecond stands for the cycle, log entry 100). -/
def Chip.trigDecide (c : Chip) (slot : Nat) : Chip :=
  if c.live F.PIX_CTRL.TRIG_MODE = 2 ∧ c.live F.TRIG_CFG.LATCH = slot then
    let p := c.pixel
    { c with pixel := { p with nextExposed := p.trigSince.any fun t => decide (t.1 < c.now),
                               trigSince := (p.trigSince.filter fun t => t.2 == c.now).map fun t => (t.2, t.2) } }
  else c

/-- The counts of the tick just ended go to TRIG_COUNT and TRIG_STAMP (R218). -/
def Chip.trigShow (c : Chip) : Chip :=
  let p := c.pixel
  let stamp := if p.trigEdges = 0 then 0 else p.trigFirst
  let c := c.set F.TRIG_COUNT.COUNT p.trigEdges
  let c := (c.put A.TRIG_STAMP_LO (Word.of stamp)).put A.TRIG_STAMP_HI (Word.of (stamp / 0x100000000))
  { c with pixel := { c.pixel with trigEdges := 0, trigFirst := 0 } }

/-- Whether the frame of the tick that begins is exposed (R219). `before` is the mode in force in the tick that ends,
`first` marks the first tick edge after an entry to RUN. -/
def Chip.gateEdge (c : Chip) (before : Nat) (first : Bool) : Bool × Chip :=
  let p := c.pixel
  if c.live F.PIX_CTRL.TRIG_MODE = 2 then
    if first then (false, { c with pixel := { p with nextExposed := false } })
    else if before = 2 then (p.nextExposed, { c with pixel := { p with nextExposed := false } })
    else (false, { c with pixel := { p with nextExposed := false, trigSince := none } })
  else (true, { c with pixel := { p with nextExposed := false } })

/-! ### Dark current (R220, R221) -/

/-- 2^(p/q) for any p, to 40 bits below its leading bit. -/
def pow2Frac (p : Int) (q : Nat) : Fp := ⟨false, pow2Scaled (p % Int.ofNat q).toNat q 40, p / Int.ofNat q - 40⟩

/-- The dark rate `a` (1/16 e⁻/s at 60 °C) at a temperature in 1/128 °C. -/
def darkRate (a : Nat) (t : Int) (dbl : Nat) : Fp := (Fp.ofInt (Int.ofNat a)).mul (pow2Frac (t - 7680) (16 * max 1 dbl))

/-- ΔD_z in 2^−32 electron for an exposure of `e` TERRACE cycles. -/
def darkOffset (zone ob dbl : Nat) (t0 t1 : Int) (j e : Nat) : Int :=
  let d := (darkRate zone (t0 * (7 - 2 * Int.ofNat j) + t1 * (2 * Int.ofNat j + 1)) dbl).sub
    (darkRate ob (4 * (t0 + t1)) dbl)
  let n := (if d.neg then -1 else 1) * Int.ofNat (d.mag * e * 2 ^ 32)
  if 0 ≤ d.ex then rne (n * 2 ^ d.ex.toNat) 3276800000 else rne n (3276800000 * 2 ^ (-d.ex).toNat)

/-- The sixteen offsets of one exposure. -/
def Chip.darkOffsets (c : Chip) (e : Nat) : List Int :=
  let t0 := c.sfld F.PIX_TEMP.T0
  let t1 := c.sfld F.PIX_TEMP.T1
  (List.range 16).map fun z =>
    if c.liveBit F.PIX_CTRL.DARK_COMP then
      darkOffset (c.live (F.DARK_ZONE.RATE.el z)) (c.live F.DARK_CFG.DARK_OB) (c.live F.DARK_CFG.DBL) t0 t1 (z % 4) e
    else 0

/-- A diode temperature in 1/16 °C, from the code of its conversion (R249). -/
def pixTemp (code : Nat) : Nat := patternOf 16 (rne (Int.ofNat code - 16384) 4)

/-- The dark offsets of the tick's frame, from the conversions completed before it, and staleness (R221). -/
def Chip.darkEdge (c : Chip) : Chip :=
  let c := match c.pixel.conv0 with
    | some x => c.set F.PIX_TEMP.T0 (pixTemp x)
    | none => c
  let c := match c.pixel.conv1 with
    | some x => c.set F.PIX_TEMP.T1 (pixTemp x)
    | none => c
  let c := { c with pixel := { c.pixel with conv0 := none, conv1 := none } }
  let p : Pixel := { c.pixel with age0 := c.pixel.age0 + 1, age1 := c.pixel.age1 + 1 }
  let stale := decide (8 < p.age0) && decide (8 < p.age1)
  let began := stale && !c.bit F.PIX_STATUS.DARK_STALE
  let c := { c with pixel := p }.setBit F.PIX_STATUS.DARK_STALE stale
  let c := if began then c.alert Code.DARK_STALE noUnit 0 else c
  { c with pixel := { c.pixel with darkLong := c.darkOffsets (c.fld F.EXP_FORCE_L.CYCLES),
                                   darkShort := c.darkOffsets (c.fld F.EXP_FORCE_S.CYCLES) } }

/-- Everything of the PIXEL block at a tick edge (R206, R213 to R221). `run` is false for the drain tick. -/
def Chip.pixelEdge (c : Chip) (before : Nat) (first run : Bool) : Chip :=
  let c := c.trigShow
  let (exposed, c) := c.gateEdge before first
  let c := (c.setBit F.PIX_STATUS.ACTIVE run).setBit F.PIX_STATUS.EXPOSED (run && exposed)
  let c := (c.set F.PIX_STATUS.TRIG_MODE (c.live F.PIX_CTRL.TRIG_MODE)).set F.PIX_STATUS.EXP_OWNER
    (c.live F.PIX_CTRL.EXP_OWNER)
  let c := c.latchExposures exposed
  let c := { c with pixel := { c.pixel with openLong := 0, openShort := 0 } }
  c.strobeEdge.darkEdge

/-- Entry to RUN (R219, R221). -/
def Chip.pixelEnterRun (c : Chip) : Chip :=
  let p := { c.pixel with trigEdges := 0, trigFirst := 0, trigSince := none, nextExposed := false, age0 := 0, age1 := 0,
                             conv0 := none, conv1 := none }
  { c with pixel := p }.put A.PIX_TEMP 0x03C003C0

end Sys2Proof.Machine
end

