-- ==== Sys2Proof/Machine/Terrace.lean ====
section
/-!
DEFINITION. Machine/Terrace.lean: the Terrace converters: groups and modes (R224 to R227, R237, R239, R240), correction
(R228), the rotating spare and its calibration (R230 to R234), retirement (R235, R236, R238) and the TERRACE registers.
-/
namespace Sys2Proof.Machine

/-! ### Groups (R225, R237) -/

/-- Put a group in place. -/
def Terrace.setGroup (t : Terrace) (g : Nat) (x : Group) : Terrace :=
  { t with groups := Sparse.set (fun _ => Group.fresh) t.groups g x }

/-- What is kept of slice `s` of group `g`. -/
def Terrace.slice (t : Terrace) (g s : Nat) : SliceRec := Sparse.get (fun _ => SliceRec.fresh) t.slices (5 * g + s)

def Terrace.setSlice (t : Terrace) (g s : Nat) (x : SliceRec) : Terrace :=
  { t with slices := Sparse.set (fun _ => SliceRec.fresh) t.slices (5 * g + s) x }

/-- Modes with a spare. -/
def modeSpare (m : Nat) : Bool := m == 0 || m == 2

/-- The active slices (R226). -/
def Group.active (x : Group) : List Nat :=
  if x.mode = 4 then [] else x.goods.filter fun s => x.spare != some s

/-- CONVERGED (R233). -/
def Group.converged (x : Group) : Bool :=
  modeSpare x.mode && x.goods.all x.spent.testBit && x.updated == 65535

/-- TER_STATUS.CONVERGED: every group is CONVERGED. -/
def Terrace.converged (t : Terrace) : Bool := t.allGroups.all Group.converged

/-- Groups in a mode. -/
def Terrace.inMode (t : Terrace) (m : Nat) : Nat := (t.allGroups.filter fun x => x.mode == m).length

/-! ### Correction (R227, R228) -/

/-- The draw that a group's coefficients stand at. -/
def Terrace.drawOf (t : Terrace) (g : Nat) : Nat := (t.group g).stay.getD t.draws

/-- Draws of a slice's weights, of its offset and gain, and of its skew trim (R231): self-calibration refreshes the spare's weights,
offset and gain; the shadow residual an active slice's offset, gain and trim. -/
def Terrace.weightDraw (t : Terrace) (g s : Nat) : Nat :=
  (t.slice g s).held.getD (if (t.group g).spare = some s then t.drawOf g else (t.slice g s).weightAt)
def Terrace.gainDraw (t : Terrace) (g s : Nat) : Nat := (t.slice g s).held.getD (t.drawOf g)
def Terrace.skewDraw (t : Terrace) (g s : Nat) : Nat :=
  (t.slice g s).held.getD (if (t.group g).spare = some s then (t.slice g s).skewAt else t.drawOf g)

/-- The calibration of SELFTEST left a slice good: its coefficients are within the limits of R235. -/
def Terrace.calibrated (t : Terrace) (g s d : Nat) : Bool := d == t.calDraw && (t.slice g s).cause != 1

/-- O[s] in 1/64 LSB, G[s] in 1.15 format and the skew trim in 0.625 ps: free values, within ±64 LSB, 0.980 to 1.020 and ±72.5 ps
as SELFTEST leaves a good slice (R228, R229, R235). -/
def Terrace.offsetOf (t : Terrace) (g s : Nat) : Int :=
  let d := t.gainDraw g s
  let x := Config.sliceOffset g s d
  if t.calibrated g s d then Int.ofNat (x.toNat % 8193) - 4096 else x.toInt
def Terrace.sliceGainOf (t : Terrace) (g s : Nat) : Nat :=
  let d := t.gainDraw g s
  let x := (Config.sliceGain g s d).toNat
  if t.calibrated g s d then 32113 + x % 1311 else x
def Terrace.skewOf (t : Terrace) (g s : Nat) : Int :=
  let d := t.skewDraw g s
  let x := Config.sliceSkew g s d
  if t.calibrated g s d then Int.ofNat (x.toNat % 233) - 116 else x.toInt

/-- CAL_RANGE (R236): O[s] beyond ±64 LSB, G[s] outside 0.980 to 1.020, or the trim at an end of its range. -/
def Terrace.outOfRange (t : Terrace) (g s : Nat) : Bool :=
  let o := t.offsetOf g s
  let k := t.sliceGainOf g s
  let w := t.skewOf g s
  decide (o < -4096) || decide (4096 < o) || decide (k < 32113) || decide (33423 < k) || w == -128 || w == 127

/-- (raw − O)·G of sixteen raw decisions, in 2^−21 LSB (R228). -/
def Terrace.sliceValue (t : Terrace) (g s bits : Nat) : Int :=
  let d := t.weightDraw g s
  let raw := ((List.range 16).map fun i => if bits.testBit i then (Config.sliceWeight g s i d).toNat else 0).foldl (· + ·) 0
  (Int.ofNat raw - t.offsetOf g s) * Int.ofNat (t.sliceGainOf g s)

/-- D[c], nominal 1.0, and C[c]. -/
def Terrace.gainOf (t : Terrace) (col : Nat) : Nat := Sparse.get (fun _ => 32768) t.colGain col
def Terrace.ofsOf (t : Terrace) (col : Nat) : Int := Sparse.get (fun _ => 0) t.colOfs col

/-- y of R228 in 2^−36 LSB, from (raw − O)·G. -/
def Terrace.corrected (t : Terrace) (col : Nat) (z : Int) : Int := z * Int.ofNat (t.gainOf col) - t.ofsOf col * 2 ^ 30

/-- The code of R227, or of R266 for the sum of two corrected values: `y` in 2^−`bits` codes. -/
def sampleCode (y : Int) (bits : Nat) : Nat := (clampInt 0 65535 (rne y (2 ^ bits) + 1024)).toNat

/-! ### Which columns convert (R224, R226, R239) -/

/-- The columns of group `g` that convert for row index `y`: all sixteen at full rate, a checkerboard at half rate. -/
def selectedColumns (r : Readout) (mosaic mode g y : Nat) : List Nat :=
  let k := Readout.kernel mosaic
  let cols := (List.range 16).map fun i => 16 * g + i
  if mode ≤ 1 then cols
  else if mode = 4 then []
  else cols.filter fun c => ((if r.binned then c / (2 * k) else c / k) + y / k) % 2 == 0

/-- The columns of a group that convert the injections of a frame (R239: one form for FULL and BIN2). -/
def injectionColumns (mosaic mode g frame : Nat) : List Nat :=
  let k := Readout.kernel mosaic
  let cols := (List.range 16).map fun i => 16 * g + i
  if mode ≤ 1 then cols
  else if mode = 4 then []
  else cols.filter fun c => c / k % 2 == frame % 2

/-- Conversions of a phase in a group: (column, slice) in the order of R226. -/
def conversions (x : Group) (cols : List Nat) (k : Int) : List (Nat × Nat) :=
  let n := cols.length
  let a := x.active
  (List.range n).map fun j =>
    (cols.getD ((Int.ofNat j + k) % Int.ofNat n).toNat 0, a.getD (j % a.length) 0)

/-! ### One row time -/

/-- Take the next raw decision word from those given; 0 when they have run out. -/
def takeRaw : List Nat → Nat × List Nat
  | [] => (0, [])
  | x :: xs => (x, xs)

/-- Convert a list of (column, slice) pairs of a group: (column, (raw − O)·G, slice) each. -/
def Terrace.convert (t : Terrace) (g : Nat) : List (Nat × Nat) → List Nat → List (Nat × Int × Nat) × List Nat
  | [], raws => ([], raws)
  | (col, s) :: rest, raws =>
    let (b, raws) := takeRaw raws
    let (zs, raws) := t.convert g rest raws
    ((col, t.sliceValue g s b, s) :: zs, raws)

/-- The conversions of a phase, of `n` with `m` active slices, that the spare shadows: `count` of them from number `lo` on, one
slice after the other from the `q`-th on, and never two within the 64 cycles of one conversion (R225, R231). -/
def shadowed (m n : Nat) : Nat → Nat → Nat → List Nat
  | 0, _, _ => []
  | count + 1, q, lo =>
    let j := lo + (q % m + m - lo % m) % m
    if m = 0 ∨ n ≤ j then [] else j :: shadowed m n count (q + 1) (j + n / 4)

/-- One shadow conversion: the residual of the active slice against the spare on the same column (R231). -/
def Terrace.shadow (t : Terrace) (g : Nat) (col : Nat) (z : Int) (s : Nat) (spare bits : Nat) : Terrace :=
  let d := (t.corrected col z - t.corrected col (t.sliceValue g spare bits)).natAbs
  let x := t.slice g s
  t.setSlice g s { x with sumSq := x.sumSq + d * d, pairs := x.pairs + 1 }

/-- The spare of a group in a phase (R231): shadows of the phase's conversions `zs`, two in groups 0 to 3 and three elsewhere, then a
self-calibration conversion, whose result is kept for the check of R236. -/
def Terrace.spareWork (t : Terrace) (g : Nat) (zs : List (Nat × Int × Nat)) (raws : List Nat) : Terrace × List Nat :=
  match (t.group g).spare with
  | none => (t, raws)
  | some sp =>
    let act := (t.group g).active
    let q := (act.map fun s => (t.slice g s).pairs).foldl (fun a b : Nat => a + b) 0
    let js := shadowed act.length zs.length (if g ≤ 3 then 2 else 3) q 0
    let (t, raws) := js.foldl (fun (acc : Terrace × List Nat) j =>
      let (b, raws) := takeRaw acc.2
      match zs[j]? with
      | none => (acc.1, raws)
      | some e => (acc.1.shadow g e.1 e.2.1 e.2.2 sp b, raws)) (t, raws)
    let (b, raws) := takeRaw raws
    let x := t.slice g sp
    (t.setSlice g sp { x with selfCal := t.sliceValue g sp b :: x.selfCal }, raws)

/-- The samples of one phase of a row: OB averages, then columns ascending; in BIN2 the binned columns (R266). -/
def Terrace.phaseSamples (t : Terrace) (r : Readout) (mosaic frame : Nat) (k : Int) (p y : Nat) (raws : List Nat) :
    Terrace × List Nat :=
  let (conv, t, raws) := (List.range 512).foldl (fun (acc : List (List (Nat × Int)) × Terrace × List Nat) g =>
    let t := acc.2.1
    let x := t.group g
    let (zs, raws) := t.convert g (conversions x (selectedColumns r mosaic x.mode g y) k) acc.2.2
    (acc.1 ++ [zs.map fun e => (e.1, t.corrected e.1 e.2.1)], t.spareWork g zs raws)) ([], t, raws)
  let (obs, raws) := (List.range 4).foldl (fun (acc : List Sample × List Nat) q =>
    match (t.group q).spare with
    | some s =>
      let (b, raws) := takeRaw acc.2
      let z := t.sliceValue q s b * 32768
      (acc.1 ++ [⟨frame, k, p, 8192 + q, some (sampleCode z 34)⟩], raws)
    | none => (acc.1 ++ [⟨frame, k, p, 8192 + q, none⟩], acc.2)) ([], raws)
  let value (col : Nat) : Option Int := ((conv.getD (col / 16) []).find? fun e => e.1 == col).map (·.2)
  let kn := Readout.kernel mosaic
  let cols := (List.range r.width).map fun x =>
    if r.binned then
      let c := 2 * kn * (x / kn) + x % kn
      match value c, value (c + kn) with
      | some a, some b => ⟨frame, k, p, x, some (sampleCode (a + b) 35)⟩
      | _, _ => ⟨frame, k, p, x, none⟩
    else ⟨frame, k, p, x, (value x).map fun a => sampleCode a 34⟩
  ({ t with samples := t.samples ++ obs ++ cols }, raws)

/-- Put an injection conversion in place; one more than 8 LSB from its level marks its slice (R236). -/
def Terrace.keepInjection (t : Terrace) (g : Nat) (hi : Bool) (col : Nat) (z : Int) (s : Nat) (store : Bool) : Terrace :=
  let level : Int := if hi then 14336 else 2048
  let off := t.corrected col z - level * 2 ^ 36
  let t := if store then { t with inject := Sparse.set (fun _ => 0) t.inject (2 * col + hi.toNat) z } else t
  if decide (8 * 2 ^ 36 < off) || decide (off < -(8 * 2 ^ 36)) then
    t.setSlice g s { t.slice g s with offNow := true }
  else t

/-- The injection conversions of a reference row time; the spare converts the column of conversion 0 once more. -/
def Terrace.injection (t : Terrace) (mosaic frame : Nat) (k : Int) (hi : Bool) (raws : List Nat) :
    Terrace × List Nat :=
  (List.range 512).foldl (fun (acc : Terrace × List Nat) g =>
    let t := acc.1
    let x := t.group g
    let (zs, raws) := t.convert g (conversions x (injectionColumns mosaic x.mode g frame) k) acc.2
    let t := zs.foldl (fun t e => t.keepInjection g hi e.1 e.2.1 e.2.2 true) t
    match x.spare, zs with
    | some s, (col, _) :: _ =>
      let (b, raws) := takeRaw raws
      (t.keepInjection g hi col (t.sliceValue g s b) s false, raws)
    | _, _ => (t, raws)) (t, raws)

/-- The conversions of row time `k`, phase by phase; in a phase without image samples the spare's own are left out, as R231's 'at most'
allows. -/
def Terrace.rowTime (t : Terrace) (r : Readout) (mosaic frame : Nat) (k : Int) (raws : List Nat) : Terrace :=
  ((List.range r.phases).foldl (fun (acc : Terrace × List Nat) p =>
    let (t, raws) := acc
    if r.isReference k && p == 0 then t.injection mosaic frame k (k == Int.ofNat r.firstActive - 1) raws
    else
      match r.rowAt (if r.phaseShort p then k + Int.ofNat r.lead else k) with
      | none => (t, raws)
      | some (_, y) => t.phaseSamples r mosaic frame k p y raws) (t, raws)).1

/-! ### Column updates (R232) -/

/-- A quotient whose rounding the spec leaves open: exact, or one of its two neighbours. -/
def roundOpen (n d : Int) (draw : Nat) : Int :=
  if n % d = 0 then n / d else n / d + (if Config.columnRounds draw then 1 else 0)

/-- D[c] and C[c] after their update. -/
def Terrace.columnUpdate (t : Terrace) (avg col draw : Nat) : Terrace :=
  let zlo := Sparse.get (fun _ => 0) t.inject (2 * col)
  let zhi := Sparse.get (fun _ => 0) t.inject (2 * col + 1)
  let free := (Config.columnOverflow draw).toNat
  let w : Int := 2 ^ avg
  let d : Int := Int.ofNat (t.gainOf col)
  let span := zhi - zlo
  let d' := if 0 < span then roundOpen (d * (w - 1) * span + 12288 * 2 ^ 36) (w * span) draw else Int.ofNat (free % 65536)
  let d' := if 0 ≤ d' ∧ d' ≤ 65535 then d'.toNat else free % 65536
  let cm := t.corrected col zlo - 2048 * 2 ^ 36 + (t.corrected col zhi - 14336 * 2 ^ 36)
  let c' := roundOpen (t.ofsOf col * (w - 1) * 2 ^ 31 + cm) (w * 2 ^ 31) (draw + 1)
  let c' := if -0x800000 ≤ c' ∧ c' ≤ 0x7FFFFF then c' else signedOf 24 free
  { t with colGain := Sparse.set (fun _ => 32768) t.colGain col d', colOfs := Sparse.set (fun _ => 0) t.colOfs col c' }

/-- The column updates of a frame: every column converted at both levels, in groups that still update (R232, R237). -/
def Terrace.columnUpdates (t : Terrace) (mosaic frame avg : Nat) : Terrace :=
  (List.range 512).foldl (fun t g =>
    let m := (t.group g).mode
    if m = 1 ∨ m = 4 then t
    else
      let cols := injectionColumns mosaic m g frame
      let t := cols.foldl (fun t col => t.columnUpdate avg col (2 * (t.draws * 8192 + col))) t
      let bits := cols.foldl (fun b col => b ||| 2 ^ (col % 16)) (t.group g).updated
      t.setGroup g { t.group g with updated := bits }) t

/-! ### Retirement and rotation (R230, R236 to R240) -/

/-- The good slice that takes the spare's role after `s`, ascending modulo 5 (R230). -/
def Group.nextSpare (x : Group) (s : Nat) : Option Nat :=
  ((List.range 5).map fun i => (s + 1 + i) % 5).find? x.good.testBit

/-- Retire slices of a group at once: the remaining good ones give the mode, and a mode just entered takes its spare. Without a
spare the coefficients stay (R237), and where updates are `stopped` they stay until those resume (R234). -/
def Group.retire (x : Group) (ss : List Nat) (stopped : Bool) (draws : Nat) : Group :=
  let y := { x with good := (List.range 5).foldl (fun b s => if x.good.testBit s && !ss.contains s then b + 2 ^ s else b) 0 }
  if y.mode = x.mode then y
  else
    let spare := if modeSpare y.mode then y.goods.getLast? else none
    { y with spare := spare, whole := false, stay := if !modeSpare y.mode then some (x.stay.getD draws) else if stopped then x.stay else none }

/-- One group at a row-time boundary (R240): retirements, mode, rotation. `frozen` is CAL_FREEZE, `stopped` that updates stand still. -/
def Group.boundary (x : Group) (ss : List Nat) (rotation frozen stopped : Bool) (draws : Nat) : Group :=
  let x := match x.spare with
    | some s => if rotation && x.whole then { x with spent := x.spent ||| 2 ^ s } else x
    | none => x
  let y := if ss.isEmpty then x else x.retire ss stopped draws
  match y.spare with
  | some s =>
    if rotation then
      { y with spare := if frozen then some s else (y.nextSpare s), whole := true, stay := if stopped then y.stay else none }
    else y
  | none => y

/-- The fault that a retirement records, from the group's new mode (R237, R238). -/
def retireFault (m : Nat) : Nat :=
  if m = 2 then Code.GROUP_HALF else if m = 4 then Code.GROUP_LOST else Code.SLICE_RETIRED

/-- Put a retirement into the log registers. -/
def Chip.retireLog (c : Chip) (g s cause rowTime : Nat) : Chip :=
  let c := ((c.set F.TER_RETIRE_LOG.GROUP g).set F.TER_RETIRE_LOG.SLICE s).set F.TER_RETIRE_LOG.CAUSE cause
  c.set F.TER_RETIRE_LOG.ROW_TIME rowTime

/-- The retirements of one group in operation: causes kept, faults and events. -/
def Chip.retireGroup (c : Chip) (g : Nat) (ss : List (Nat × Nat)) (before : Nat) : Chip :=
  let after := (c.terrace.group g).mode
  let k := (c.terrace.lastRow + 1 + Int.ofNat c.image.readout.lead).toNat
  let c := ss.foldl (fun c e =>
    let c := { c with terrace := c.terrace.setSlice g e.1 { c.terrace.slice g e.1 with cause := e.2 } }
    let c := ((c.retireLog g e.1 e.2 k).set F.TER_RETIRE_FRAME.FRAME (c.fld F.TICK_FRAME.FRAME)).raise
      F.TER_EVENTS.SLICE_RETIRED
    c.alert (retireFault after) g 0) c
  let c := if after ≠ before ∧ (after = 2 ∨ after = 3) then c.raise F.TER_EVENTS.GROUP_HALF else c
  if after ≠ before ∧ after = 4 then c.raise F.TER_EVENTS.GROUP_LOST else c

/-- RESIDUAL (R236): above 2.00 LSB rms over at least 256 shadow pairs. -/
def SliceRec.residualBad (x : SliceRec) : Bool := decide (256 ≤ x.pairs) && decide (x.pairs * 2 ^ 74 < x.sumSq)

/-- WEIGHT (R236): a self-calibration conversion more than 1 LSB from its reference, of the `levels` in 1/64 LSB, newest first. -/
def SliceRec.weightBad (x : SliceRec) (levels : List Int) : Bool :=
  (x.selfCal.zip levels).any fun e => decide (2 ^ 21 < (e.1 - e.2 * 2 ^ 15).natAbs)

/-- Slices of group `g` that retire at the boundary that comes, with their causes (R236): at a rotation boundary, in a group with a
spare, by what the interval showed, `refs` being the references of the spare's self-calibration conversions by group; after the second
injection those off in this frame and the last. Of several causes the lowest code is reported (DESIGN CHOICE, log entry 109). -/
def Terrace.retiring (t : Terrace) (refs : List (Nat × List Int)) (rotation atRef : Bool) (g : Nat) : List (Nat × Nat) :=
  let seen := rotation && (t.group g).spare.isSome
  (t.group g).goods.filterMap fun s =>
    let x := t.slice g s
    if seen && x.rangeSeen then some (s, 2)
    else if seen && x.residualBad then some (s, 3)
    else if seen && x.weightBad ((refs.find? (·.1 == g)).elim [] (·.2)) then some (s, 4)
    else if atRef && x.offNow && x.offLast then some (s, 5)
    else none

/-- TER_SLICE_RESID at the end of an interval, in 1/256 LSB rms (R244); its rounding is free, and so is a value beyond its range. -/
def SliceRec.residOf (x : SliceRec) (key draw : Nat) : Option Nat :=
  if x.pairs = 0 then none
  else
    let v := Nat.sqrt (x.sumSq / (x.pairs * 2 ^ 56))
    let v := if v * v * (x.pairs * 2 ^ 56) = x.sumSq then v else v + (Config.residualRounds (key / 5) (key % 5) draw).toNat
    some (if v < 0xFFFF then v else (Config.sliceResidual (key / 5) (key % 5) draw).toNat % 0xFFFF)

/-- What is kept of a slice after the second injection, and after a rotation boundary. -/
def SliceRec.afterRef (x : SliceRec) : SliceRec := { x with offLast := x.offNow, offNow := false }
def SliceRec.afterInterval (x : SliceRec) (key draw : Nat) : SliceRec :=
  { x with resid := x.residOf key draw, sumSq := 0, pairs := 0, rangeSeen := false, selfCal := [] }

/-- Change what is kept of every slice. -/
def Terrace.mapSlices (t : Terrace) (f : Nat → SliceRec → SliceRec) : Terrace :=
  { t with slices := t.slices.filterMap fun e =>
      let x := f e.1 e.2
      if x = SliceRec.fresh then none else some (e.1, x) }

/-- A group leaves a boundary as `y`: the slice that gives up the spare's role keeps its weights, the one that takes it its skew
trim, and a retired slice all of its coefficients (R231). -/
def Terrace.settleGroup (t : Terrace) (g : Nat) (y : Group) (retired : List Nat) : Terrace :=
  let d := t.drawOf g
  let old := (t.group g).spare
  let t := if old = y.spare then t else
    match old with
    | some s => t.setSlice g s { t.slice g s with weightAt := d }
    | none => t
  let t := if old = y.spare then t else
    match y.spare with
    | some s => t.setSlice g s { t.slice g s with skewAt := d }
    | none => t
  (retired.foldl (fun t s => t.setSlice g s { t.slice g s with held := some d }) t).setGroup g y

/-- The start of a row time at which a rotation boundary, the point after the second injection, or both fall. -/
def Chip.terraceBoundary (c : Chip) (refs : List (Nat × List Int)) (atRef rotation : Bool) : Chip :=
  let frozen := c.liveBit F.TER_CTRL.CAL_FREEZE
  let stopped := frozen || (c.terrace.paused && !rotation)
  let t := { c.terrace with paused := stopped }
  let avg := min 8 (max 1 (c.live F.TER_CTRL.COL_AVG))
  let t := if atRef && !stopped then t.columnUpdates c.mosaic (c.fld F.TICK_FRAME.FRAME) avg else t
  let c := { c with terrace := t }
  let c := (List.range 512).foldl (fun c g =>
    let x := c.terrace.group g
    let ss := c.terrace.retiring refs rotation atRef g
    let y := x.boundary (ss.map (·.1)) rotation frozen stopped c.terrace.draws
    let c := { c with terrace := c.terrace.settleGroup g y (ss.map (·.1)) }
    if ss.isEmpty then c else c.retireGroup g ss x.mode) c
  let t := c.terrace
  let t := if atRef then { t.mapSlices fun _ x => x.afterRef with inject := [] } else t
  let t := if rotation then t.mapSlices fun k x => x.afterInterval k (c.fld F.TER_ROT.BOUNDARIES) else t
  let c := { c with terrace := t }
  if rotation then c.count F.TER_ROT.BOUNDARIES 1 else c

/-- ROTATION_BOUNDARY: the boundary at the start of the next row time, with the references that self-calibration converted. -/
def Chip.rotationBoundary (c : Chip) (refs : List (Nat × List Int)) : Chip :=
  if c.dev.ticking && c.bit F.PIX_STATUS.ACTIVE && c.fld F.TER_ROT.POSITION == 255 && !c.terrace.boundaryTaken then
    let atRef := c.terrace.lastRow + 1 == Int.ofNat c.image.readout.firstActive
    let c := c.terraceBoundary refs atRef true
    { c with terrace := { c.terrace with boundaryTaken := true, injectTaken := atRef } }
  else c

/-- ROTATION_BOUNDARY. -/
def execRotationBoundary (refs : List (Nat × List Int)) (s : State) : Host.Outcome State Fault Refusal :=
  act (.rotationBoundary refs) (fun _ c => c.rotationBoundary refs) s

/-! ### ROW_TIME_START -/

/-- Mark the frame in the pipeline with what its first or last row time shows (R233, R240). -/
def Chip.frameCalibration (c : Chip) (r : Readout) (k : Int) : Chip :=
  let frame := c.fld F.TICK_FRAME.FRAME
  let c :=
    if k = -Int.ofNat r.lead then
      let s := c.terrace.converged
      let c := { c with terrace := { c.terrace with settled := s } }
      let c := { c with front := c.front.map (fun f : FrontFrame => if f.frame = frame then { f with settled := s } else f) }
      if s then c else c.metaUpd frame fun m => { m with flags := m.flags ||| 4 }
    else c
  if k + 1 = Int.ofNat r.rowTimes then
    let ms := (List.range 5).map c.terrace.inMode
    c.metaUpd frame fun m => { m with modes := ms }
  else c

/-- The coefficients take their next values (R231), unless updates stand still; those of groups with a spare that leave their limits
mark their slices (R236). -/
def Terrace.refresh (t : Terrace) : Terrace :=
  let t := if t.paused then t else { t with draws := t.draws + 1 }
  (List.range 512).foldl (fun t g =>
    let x := t.group g
    if x.spare.isNone then t
    else x.goods.foldl (fun t s =>
      if t.outOfRange g s then t.setSlice g s { t.slice g s with rangeSeen := true } else t) t) t

/-- ROW_TIME_START: row time `k` begins (R201, R226, R230 to R232, R240), and rows read by then are signalled to the tick
sequencer (R96). `k` = N_RT is the end of the readout. `raws` are the raw decisions of its conversions: phase by phase,
group by group, in the order of R226 and then the spare's own (`Terrace.spareWork`), then the OB averages of groups 0 to 3. -/
def Chip.rowTimeStart (c : Chip) (k : Int) (raws : List Nat) : Chip :=
  let r := c.image.readout
  if !(c.dev.ticking && c.bit F.PIX_STATUS.ACTIVE) || decide (k < -Int.ofNat r.lead) || decide (Int.ofNat r.rowTimes < k) then
    c
  else
    let read := (k - Int.ofNat r.firstActive).toNat
    let c := { c with sched := { c.sched with rowsRead := max c.sched.rowsRead read } }
    if k = Int.ofNat r.rowTimes then c
    else
      let rotation := c.fld F.TER_ROT.POSITION == 255 && !c.terrace.boundaryTaken
      let atRef := k == Int.ofNat r.firstActive && !c.terrace.injectTaken
      let c := if rotation || atRef then c.terraceBoundary [] atRef rotation else c
      let c := c.countWrap F.TER_ROT.POSITION 1
      let t := { c.terrace with boundaryTaken := false, injectTaken := false, lastRow := k }
      let c := { c with terrace := t.refresh }.frameCalibration r k
      { c with terrace := c.terrace.rowTime r c.mosaic (c.fld F.TICK_FRAME.FRAME) k raws }

/-- ROW_TIME_START. -/
def execRowTimeStart (k : Int) (raws : List Nat) (s : State) : Host.Outcome State Fault Refusal :=
  act (.rowTimeStart k raws) (fun _ c => c.rowTimeStart k raws) s

/-! ### SELFTEST, entry to RUN, tick edge -/

/-- Slices that SELFTEST retires (R235, R237), with the events of the groups that enter half rate or are lost (R244). -/
def Chip.terraceSelftest (c : Chip) (ss : List Nat) : Chip :=
  (List.range 512).foldl (fun c g =>
    let mine := (List.range 5).filter fun s => ss.contains (5 * g + s)
    if mine.isEmpty then c
    else
      let x := (c.terrace.group g).retire mine false c.terrace.draws
      let t := c.terrace.settleGroup g x mine
      let c := if x.mode = 2 ∨ x.mode = 3 then c.raise F.TER_EVENTS.GROUP_HALF
        else if x.mode = 4 then c.raise F.TER_EVENTS.GROUP_LOST else c
      let t := mine.foldl (fun t s => t.setSlice g s { t.slice g s with cause := 1 }) t
      mine.foldl (fun c s => c.retireLog g s 1 0) { c with terrace := t }) c

/-- Entry to RUN clears CONVERGED in every group (R233). -/
def Chip.terraceEnterRun (c : Chip) : Chip :=
  { c with terrace := { c.terrace with groups := (List.range 512).foldl (fun gs g =>
      let x := Sparse.get (fun _ => Group.fresh) gs g
      Sparse.set (fun _ => Group.fresh) gs g { x with spent := 0, whole := false, updated := 0 }) c.terrace.groups } }

/-- The Terrace at a tick edge: TER_STATUS.FROZEN follows CAL_FREEZE, which stops the updates (R234), and DEGRADE bit 2 the modes
(R237, R244). -/
def Chip.terraceEdge (c : Chip) : Chip :=
  let c := c.setBit F.TER_STATUS.FROZEN (c.liveBit F.TER_CTRL.CAL_FREEZE)
  let bad := c.terrace.allGroups.any fun x => decide (2 ≤ x.mode)
  let c := c.set F.DEV_STATE.DEGRADE ((c.fld F.DEV_STATE.DEGRADE &&& 0xB) ||| (if bad then 4 else 0))
  { c with terrace := { c.terrace with lastRow := -Int.ofNat c.image.readout.lead - 1, inject := []
                                       paused := c.terrace.paused || c.liveBit F.TER_CTRL.CAL_FREEZE } }

/-! ### Registers (R244) -/

/-- TER_STATUS, TER_GROUPS and TER_MODE_MAP[i] as they read. -/
def Chip.terStatusWord (c : Chip) : Word :=
  let t := c.terrace
  let retired := (t.groups.map fun e => 5 - e.2.goods.length).foldl (· + ·) 0
  Word.of (retired + 65536 * (t.inMode 2 + t.inMode 3) + (c.word A.TER_STATUS).toNat / 0x40000000 % 2 * 0x40000000 +
    0x80000000 * t.converged.toNat)
def Chip.terGroupsWord (c : Chip) : Word :=
  let t := c.terrace
  Word.of (t.inMode 4 + 65536 * (t.inMode 1 + t.inMode 3))
def Chip.modeMapWord (c : Chip) (i : Nat) : Word :=
  Word.of (((List.range 8).map fun j =>
    let x := c.terrace.group (8 * i + j)
    16 ^ j * (x.mode + 8 * x.converged.toNat)).foldl (· + ·) 0)

/-- A write of TER_SEL: the group and slice it names are copied (R244). -/
def Chip.terSelWrite (c : Chip) (g s : Nat) : Chip :=
  if c.dev.open then
    let c := (c.set F.TER_SEL.GROUP g).set F.TER_SEL.SLICE s
    let s := min s 4
    let t := c.terrace
    let x := t.group g
    let rec_ := t.slice g s
    let c := ((c.set F.TER_GROUP.MODE x.mode).setBit F.TER_GROUP.CONVERGED x.converged).set F.TER_GROUP.SPARE (x.spare.getD 7)
    let c := c.set F.TER_GROUP.GOOD x.good
    let c := c.set F.TER_SLICE_OFS.OFFSET (patternOf 24 (t.offsetOf g s))
    let c := c.set F.TER_SLICE_GAIN.GAIN (t.sliceGainOf g s)
    let c := c.set F.TER_SLICE_SKEW.TRIM (patternOf 8 (t.skewOf g s))
    let c := c.set F.TER_SLICE_RESID.RMS (rec_.resid.getD 0xFFFF)
    (c.setBit F.TER_SLICE_STATE.RETIRED (!x.good.testBit s)).set F.TER_SLICE_STATE.CAUSE rec_.cause
  else c

/-- TER_SEL_WRITE. -/
def execTerSelWrite (g s : Nat) (st : State) : Host.Outcome State Fault Refusal :=
  act (.terSelWrite g s) (fun _ c => c.terSelWrite g s) st

end Sys2Proof.Machine
end

