-- ==== Sys2Proof/Machine/Front.lean ====
section
/-!
DEFINITION. Machine/Front.lean: the front pipeline (R263 to R289): black level, linearization, HDR merge, defect correction,
shading and normalization, colour reconstruction, outputs and statistics. A pixel is merged when its last sample arrives;
an output row is written once the rows it depends on are merged (R284).
-/
namespace Sys2Proof.Machine

/-! ### The FRONT section (R288) -/

/-- An output descriptor. -/
structure OutDesc where
  scale : Nat
  fmt : Nat
  tile : Nat
  nbands : Nat
  base : Nat
  queue : Nat
  rsv : List Byte
  deriving DecidableEq, Repr

/-- The descriptor whose 16 bytes these are. -/
def OutDesc.ofBytes (b : List Byte) : OutDesc :=
  { scale := leAt b 0 1, fmt := leAt b 1 1, tile := leAt b 2 1, nbands := leAt b 3 1, base := leAt b 4 4,
    queue := leAt b 8 2, rsv := sliceOf b 10 6 }

/-- Tile width and height. -/
def OutDesc.tw (o : OutDesc) : Nat := 2 ^ (o.tile % 16 + 4)
def OutDesc.th (o : OutDesc) : Nat := 2 ^ (o.tile / 16 + 4)

/-- The FRONT body of an image, and the output descriptors in use. -/
def Image.front (im : Image) : List Byte := im.body Ty.FRONT 0
def Image.outs (im : Image) : List OutDesc :=
  (List.range (leAt im.front 2 1)).map fun i => OutDesc.ofBytes (sliceOf im.front (0x20 + 16 * i) 16)

/-- Output channels: three on EV6050-B, four elsewhere (R285). -/
def outChannels (mosaic : Nat) : Nat := if mosaic = 0 then 3 else 4

/-- Bytes of a tile. -/
def OutDesc.tileBytes (o : OutDesc) (n : Nat) : Nat := n * o.tw * o.th * 2

/-- Basin offset of element (channel, x, y) of an output of width `w` (R285). -/
def OutDesc.offset (o : OutDesc) (n w h x y : Nat) : Nat :=
  o.base + y / o.th % o.nbands * (w / o.tw) * o.tileBytes n + x / o.tw * o.tileBytes n + h * o.tw * o.th * 2 +
    y % o.th * o.tw * 2 + x % o.tw * 2

/-- A front output with what its element addresses depend on (R285): its channels and its width. -/
structure FrontOut where
  desc : OutDesc
  channels : Nat
  width : Nat
  deriving DecidableEq, Repr

/-- Offset of an element of an output. -/
def FrontOut.offset (o : FrontOut) (h x y : Nat) : Nat := o.desc.offset o.channels o.width h x y

/-- The outputs of an image on a device of this mosaic. -/
def Image.frontOuts (im : Image) (mosaic : Nat) : List FrontOut :=
  im.outs.map fun o => ⟨o, outChannels mosaic, im.readout.width / 2 ^ o.scale⟩

/-! ### Colours (R197, R272) -/

/-- Colour index of an active pixel. -/
def colourOf (mosaic x y : Nat) : Nat :=
  match mosaic with
  | 0 => if y % 2 = 0 then (if x % 2 = 0 then 0 else 1) else (if x % 2 = 0 then 2 else 3)
  | 1 => ([3, 0, 3, 1, 0, 3, 1, 3, 3, 1, 3, 2, 1, 3, 2, 3] : List Nat).getD (4 * (y % 4) + x % 4) 0
  | _ => ([2, 1, 0, 1, 1, 3, 1, 3, 0, 1, 2, 1, 1, 3, 1, 3] : List Nat).getD (4 * (y % 4) + x % 4) 0

/-- Output channel of an active pixel's own colour: on EV6050-B both kinds of G are channel 1 and B is 2. -/
def nativeChannel (mosaic x y : Nat) : Nat :=
  let c := colourOf mosaic x y
  if mosaic = 0 then (match c with | 0 => 0 | 3 => 2 | _ => 1) else c

/-! ### Frames in the pipeline (R265) -/

/-- Addresses of the FRONT settings latched for a frame. -/
def frontAddrs : List Nat :=
  [A.FR_CTRL, A.FR_BL_WIN, A.FR_HCG_KNEE, A.FR_EXP_KNEE, A.FR_SAT, A.FR_NOISE, A.FR_MOTION, A.FR_DEFECT, A.FR_EDGE,
   A.FR_CG, A.FR_NORM, A.FR_IRW] ++ (List.range 4).map (fun i => A.FR_WB + 4 * i) ++
  (List.range 4).map fun i => A.FR_IRK + 4 * i

/-- A frame begins at a tick edge: its settings, exposures and dark offsets are latched. -/
def Chip.frontEdge (c : Chip) (frame : Nat) : Chip :=
  let regs : RegFile := frontAddrs.foldl (fun (r : RegFile) a => r.put a (c.force.word a)) []
  let regs : RegFile := (regs.put A.EXP_FORCE_L (c.word A.EXP_FORCE_L)).put A.EXP_FORCE_S (c.word A.EXP_FORCE_S)
  let f : FrontFrame :=
    { frame := frame, old := false, regs := regs, settled := true, obSum := [], avgSum := [], avgRow := [], held := [],
      shortMissing := [], pix := [], rowsIn := 0, rowsOut := 0, told := 0, black := [], gains := c.pixel.gains,
      dark := c.pixel.darkLong ++ c.pixel.darkShort }
  let c := { c with front := c.front.drop (c.front.length - 1) ++ [f] }
  let c := (c.set F.FR_STATUS.ROW 0x1FFF).setBit F.FR_STATUS.STATS_BUF (frame % 2 == 1)
  c.setBit F.FR_STATUS.BL_VALID false

/-- Change the frame with a number. -/
def Chip.frontUpd (c : Chip) (frame : Nat) (f : FrontFrame → FrontFrame) : Chip :=
  { c with front := c.front.map (fun x : FrontFrame => if x.frame = frame then f x else x) }

/-! ### Stage 1: black level (R268 to R270) -/

/-- The row index belongs to the OB rows that the frame black averages. -/
def blackRow (r : Readout) (y : Nat) : Bool := decide ((if r.binned then 4 else 8) ≤ y)

/-- Add a value to a sum and count. -/
def addSum (m : List (Nat × (Nat × Nat))) (key v : Nat) : List (Nat × (Nat × Nat)) :=
  let o := Sparse.get (fun _ => (0, 0)) m key
  Sparse.set (fun _ => (0, 0)) m key (o.1 + v, o.2 + 1)

/-- A fault recorded once for the frame, with its event. -/
def Chip.frontTell (c : Chip) (frame bit : Nat) (ev : Fld) (code : Nat) : Chip :=
  match c.front.find? fun f => f.frame == frame with
  | none => c
  | some f =>
    let c := c.raise ev
    if f.told.testBit bit then c else (c.frontUpd frame fun f => { f with told := f.told + 2 ^ bit }).alert code noUnit 0

/-- An OB column average arrives (R224, R269). -/
def Chip.frontAverage (c : Chip) (r : Readout) (f : FrontFrame) (s : Sample) (obRow : Option Nat) : Chip :=
  let key := 4 * s.phase + (s.col - 8192)
  let rows := f.avgRow.filter fun e : Nat × Nat => e.1 != key
  let c := match s.code with
    | some v =>
      c.frontUpd f.frame fun f =>
        { f with avgRow := rows ++ [(key, v)],
                 avgSum := (match obRow with
                   | some y => if blackRow r y then addSum f.avgSum key v else f.avgSum
                   | none => f.avgSum) }
    | none => c.frontUpd f.frame fun f => { f with avgRow := rows }
  if s.col = 8195 ∧ obRow = none then
    match c.front.find? fun g => g.frame == f.frame with
    | some g =>
      if (List.range 4).all fun q => !(g.avgRow.any fun e : Nat × Nat => e.1 == 4 * s.phase + q) then
        c.frontTell f.frame 3 F.FR_EVENTS.ROW_BL_ABSENT Code.ROW_BL_ABSENT
      else c
    | none => c
  else c

/-- B[p] completes with the last sample of its last OB row (R268). -/
def Chip.frontBlackDone (c : Chip) (r : Readout) (f : FrontFrame) (p : Nat) : Chip :=
  let (sum, n) := Sparse.get (fun _ => (0, 0)) f.obSum p
  let b := if n = 0 then (Config.emptyMean f.frame p).toNat else (rne (Int.ofNat (256 * sum)) (Int.ofNat n)).toNat
  let c := c.frontUpd f.frame fun f => { f with black := f.black ++ [(p, b)] }
  let c := if f.frame = c.fld F.TICK_FRAME.FRAME then
      (c.set (F.FR_BLACK.BLACK.el p) b).setBit F.FR_STATUS.BL_VALID (decide (f.black.length + 1 = r.phases))
    else c
  let c := c.metaUpd f.frame fun m => { m with black := m.black.mapIdx fun i x => if i = p then b else x }
  if b < 256 * f.regs.fld F.FR_BL_WIN.LO ∨ 256 * f.regs.fld F.FR_BL_WIN.HI < b then
    c.frontTell f.frame 0 F.FR_EVENTS.BL_RANGE Code.BL_RANGE
  else c

/-- An OB row's sample at an active column position. -/
def Chip.frontOb (c : Chip) (r : Readout) (f : FrontFrame) (s : Sample) (y : Nat) : Chip :=
  let f := match s.code with
    | some v => if blackRow r y then { f with obSum := addSum f.obSum s.phase v } else f
    | none => f
  let c := c.frontUpd f.frame fun _ => f
  if y + 1 = r.obRows ∧ s.col + 1 = r.width then c.frontBlackDone r f s.phase else c

/-- r[k, p] as a numerator and a positive denominator (R269). -/
def FrontFrame.rowBlack (f : FrontFrame) (p : Nat) : Int × Int :=
  let terms := (List.range 4).filterMap fun q =>
    (f.avgRow.find? fun e : Nat × Nat => e.1 == 4 * p + q).map fun e =>
      let (sum, n) := Sparse.get (fun _ => (0, 0)) f.avgSum (4 * p + q)
      if n = 0 then (Int.ofNat e.2 - Int.ofNat (Config.emptyMean f.frame (16 + 4 * p + q)).toNat, (1 : Int))
      else (Int.ofNat (e.2 * n) - Int.ofNat sum, Int.ofNat n)
  if terms.isEmpty ∨ f.regs.fld F.FR_CTRL.ROW_BL_EN = 0 then (0, 1)
  else
    let s := terms.foldl (fun (a : Int × Int) t => (a.1 * t.2 + t.1 * a.2, a.2 * t.2)) ((0 : Int), (1 : Int))
    (s.1, s.2 * Int.ofNat terms.length)

/-- Gain of the read in a phase: true for HCG (R199). -/
def FrontFrame.highGain (f : FrontFrame) (r : Readout) (p : Nat) : Bool :=
  if r.phaseShort p then f.gains / 2 % 2 == 1
  else if r.sampleSet = 0 ∨ r.sampleSet = 2 then f.gains % 2 == 1
  else p == 0

/-- Dark-current zone of an active pixel (R220). -/
def darkZone (r : Readout) (x y : Nat) : Nat := 4 * (y / (r.rows / 4)) + x / (r.width / 4)

/-- The input code u of R270. -/
def FrontFrame.inputCode (f : FrontFrame) (r : Readout) (p x y code : Nat) : Nat :=
  let b := ((f.black.find? fun e : Nat × Nat => e.1 == p).map (·.2)).getD 0
  let (rn, rd) := f.rowBlack p
  let dark := f.dark.getD ((if r.phaseShort p then 16 else 0) + darkZone r x y) 0
  let cg := if f.highGain r p then f.regs.fld F.FR_CG.HCG else f.regs.fld F.FR_CG.LCG
  let n := ((Int.ofNat code * 2 ^ 40 - Int.ofNat b * 2 ^ 32 - dark * Int.ofNat cg) * rd - rn * 2 ^ 40)
  (clampInt 0 65535 (rne n (rd * 2 ^ 40) + 1024)).toNat

/-! ### Stage 2: linearization (R271 to R273) -/

/-- u' of R271. -/
def Chip.trimmed (c : Chip) (high : Bool) (u : Nat) : Nat :=
  let z := c.otpInForce 4
  let j := u / 2048
  let f := Int.ofNat (u % 2048)
  let t := linTrim z high.toNat j * (2048 - f) + linTrim z high.toNat (j + 1) * f
  (clampInt 0 65535 (Int.ofNat u + rne t 32768)).toNat

/-- Point `i` of a linearization curve; an absent one is the identity. -/
def linPoint (curve : Option CurveRec) (i : Nat) : Int :=
  match curve with
  | some r => signedOf 24 (r.point i)
  | none => 64 * Int.ofNat i - 1024

/-- Electrons in 1/64 e⁻ (R273). -/
def linearize (curve : Option CurveRec) (u : Nat) : Int :=
  let i := u / 64
  linPoint curve i + ((linPoint curve (i + 1) - linPoint curve i) * Int.ofNat (u % 64) + 32) / 64

/-! ### Stage 3: HDR merge (R275, R276) -/

/-- binary32 of `i`/2^n. -/
def frac32 (i : Int) (n : Nat) : Nat := f32 ((Fp.ofInt i).shift (-Int.ofNat n))

/-- ρ. -/
def FrontFrame.rho (f : FrontFrame) : Nat :=
  F32.div (F32.ofInt (Int.ofNat (f.regs.fld F.EXP_FORCE_L.CYCLES))) (F32.ofInt (Int.ofNat (f.regs.fld F.EXP_FORCE_S.CYCLES)))

/-- NM in binary32. -/
def FrontFrame.noise (f : FrontFrame) : Nat := frac32 (Int.ofNat (f.regs.fld F.FR_NOISE.NM_READ)) 8

/-- clamp((u − KNEE)/BAND, 0, 1). -/
def kneeWeight (u knee band : Nat) : Nat :=
  F32.unit (F32.div (F32.ofInt (Int.ofNat u - Int.ofNat knee)) (F32.ofInt (Int.ofNat (max 1 band))))

/-- One minus a number. -/
abbrev one32 : Nat := 0x3F800000
def oneMinus (a : Nat) : Nat := F32.sub one32 a

/-- m of R275. -/
def FrontFrame.motion (f : FrontFrame) (place rl rs eS : Nat) : Nat :=
  let rho := f.rho
  let nm := f.noise
  let s2 := F32.add (F32.mul (F32.mul rho rho) (F32.add (F32.mul nm nm) (F32.max eS 0)))
    (F32.add (F32.mul nm nm) (F32.max rl 0))
  let s := F32.sqrt s2
  let ratio := if s = 0 then (Config.frontUnstated f.frame place).toNat else F32.div (F32.abs (F32.sub rs rl)) s
  let k0 := f.regs.fld F.FR_MOTION.K0
  let k1 := if f.regs.fld F.FR_MOTION.K1 ≤ k0 then k0 + 1 else f.regs.fld F.FR_MOTION.K1
  F32.unit (F32.div (F32.sub ratio (frac32 (Int.ofNat k0) 4))
    (F32.sub (frac32 (Int.ofNat k1) 4) (frac32 (Int.ofNat k0) 4)))

/-- The merged pixel from the readings present: input codes and electrons of the long reads in phase order, and of the
short one. -/
def FrontFrame.merge (f : FrontFrame) (place : Nat) (long : List (Nat × Nat)) (short : Option (Nat × Nat)) : Pix :=
  let rl := match long with
    | [h, l] =>
      let ag := kneeWeight h.1 (f.regs.fld F.FR_HCG_KNEE.KNEE) (f.regs.fld F.FR_HCG_KNEE.BAND)
      F32.add (F32.mul (oneMinus ag) h.2) (F32.mul ag l.2)
    | e :: _ => e.2
    | [] => 0
  let uref := (long.getLast?.map (·.1)).getD 0
  let sat := f.regs.fld F.FR_SAT.SAT
  match short with
  | none => { r := rl, a := 0, sat := decide (sat ≤ uref), motion := false, missing := false, marked := false }
  | some (us, es) =>
    let ae := kneeWeight uref (f.regs.fld F.FR_EXP_KNEE.KNEE) (f.regs.fld F.FR_EXP_KNEE.BAND)
    let rs := F32.mul es f.rho
    let m := if F32.lt ae one32 ∧ f.regs.fld F.FR_CTRL.MOTION_EN = 1 then f.motion place rl rs es else 0
    let a := F32.max ae m
    { r := F32.add (F32.mul (oneMinus a) rl) (F32.mul a rs), a := a,
      sat := if F32.lt a one32 then decide (sat ≤ uref) else decide (sat ≤ us),
      motion := F32.lt ae m, missing := false, marked := false }

/-! ### Stage 4: defect correction (R277 to R279) -/

/-- The nearest in-array coordinate of the same kernel position (R278). -/
def inArray (k w : Nat) (x : Int) : Nat :=
  if x < 0 then (x + Int.ofNat k * ((-x + Int.ofNat k - 1) / Int.ofNat k)).toNat
  else if Int.ofNat w ≤ x then
    (x - Int.ofNat k * ((x - Int.ofNat w + 1 + Int.ofNat k - 1) / Int.ofNat k)).toNat
  else x.toNat

/-- What stages 4 to 7 read: geometry, settings and the merged pixels of one frame. -/
structure FrontView where
  f : FrontFrame
  r : Readout
  mosaic : Nat
  /-- Static defects as (row, column) of FULL active coordinates. -/
  defects : List (Nat × Nat)
  front : List Byte

namespace FrontView

/-- Kernel side. -/
def k (v : FrontView) : Nat := Readout.kernel v.mosaic

/-- The merged pixel at (x, y). -/
def pix (v : FrontView) (x y : Nat) : Pix := Sparse.get (fun _ => Pix.absent) v.f.pix (y * 8192 + x)

/-- Static-defective (R277). -/
def static (v : FrontView) (x y : Nat) : Bool :=
  if v.r.binned then
    let c := 2 * v.k * (x / v.k) + x % v.k
    let d := 2 * v.k * (y / v.k) + y % v.k
    v.defects.any fun e => (e.2 == c || e.2 == c + v.k) && (e.1 == d || e.1 == d + v.k)
  else v.defects.any fun e => e.1 == y && e.2 == x

/-- A neighbour is available. -/
def available (v : FrontView) (x y : Nat) : Bool := !v.static x y && !(v.pix x y).missing

/-- Column and row after the replacement rule. -/
def col (v : FrontView) (k : Nat) (x : Int) : Nat := inArray k v.r.width x
def row (v : FrontView) (k : Nat) (y : Int) : Nat := inArray k v.r.rows y

/-- H, V and the diagonals of N8. -/
def pairH (v : FrontView) (x y : Nat) : List (Nat × Nat) :=
  [(v.col v.k (Int.ofNat x - Int.ofNat v.k), y), (v.col v.k (Int.ofNat x + Int.ofNat v.k), y)]
def pairV (v : FrontView) (x y : Nat) : List (Nat × Nat) :=
  [(x, v.row v.k (Int.ofNat y - Int.ofNat v.k)), (x, v.row v.k (Int.ofNat y + Int.ofNat v.k))]
def near (v : FrontView) (x y : Nat) : List (Nat × Nat) :=
  v.pairH x y ++ v.pairV x y ++
    (v.pairV x y).flatMap fun e => (v.pairH x y).map fun d => (d.1, e.2)

/-- Stage-3 values of the available pixels of a list. -/
def values (v : FrontView) (ps : List (Nat × Nat)) : List Nat :=
  (ps.filter fun p => v.available p.1 p.2).map fun p => (v.pix p.1 p.2).r

/-- The dynamic test of R278 fails. -/
def dynamic (v : FrontView) (x y : Nat) : Bool :=
  let ns := v.values (v.near x y)
  if v.f.regs.fld F.FR_CTRL.DYN_EN = 0 ∨ v.available x y = false ∨ ns.length < 4 then false
  else
    let p := v.pix x y
    let nm := v.f.noise
    let re := F32.add one32 (F32.mul p.a (F32.sub v.f.rho one32))
    let s2 := F32.add (F32.mul (F32.mul re re) (F32.mul nm nm)) (F32.mul re (F32.max (F32.mean ns) 0))
    let t := F32.mul (frac32 (Int.ofNat (v.f.regs.fld F.FR_DEFECT.DYN_T)) 4) (F32.sqrt s2)
    let mx := ns.foldl F32.max (ns.headD 0)
    let mn := ns.foldl F32.min (ns.headD 0)
    F32.lt t (F32.sub p.r mx) || F32.lt t (F32.sub mn p.r)

/-- Why a pixel is replaced: 0 not at all, 1 static, 2 dynamic, 3 MISSING. -/
def cause (v : FrontView) (x y : Nat) : Nat :=
  if (v.pix x y).missing then 3 else if v.static x y then 1 else if v.dynamic x y then 2 else 0

/-- The nearest available pixel of the kernel position to one side, within 32 columns: distance and value. -/
def sideways (v : FrontView) (x y : Nat) (right : Bool) : Option (Nat × Nat) :=
  ((List.range (32 / v.k)).map fun i => (i + 1) * v.k).findSome? fun d =>
    let x' : Int := if right then Int.ofNat x + Int.ofNat d else Int.ofNat x - Int.ofNat d
    if 0 ≤ x' ∧ x' < Int.ofNat v.r.width ∧ v.available x'.toNat y = true then some (d, (v.pix x'.toNat y).r) else none

/-- The value that replaces a defective pixel and the rule of R279 that gave it. -/
def replacement (v : FrontView) (x y : Nat) : Nat × Nat :=
  let h := v.values (v.pairH x y)
  let w := v.values (v.pairV x y)
  if h.length = 2 ∧ w.length = 2 then
    let dh := F32.abs (F32.sub (h.getD 0 0) (h.getD 1 0))
    let dv := F32.abs (F32.sub (w.getD 0 0) (w.getD 1 0))
    (F32.mean (if F32.lt dv dh then w else h), 1)
  else if h.length = 2 then (F32.mean h, 2)
  else if w.length = 2 then (F32.mean w, 2)
  else if (h ++ w).isEmpty = false then (F32.mean (h ++ w), 3)
  else match v.sideways x y false, v.sideways x y true with
    | some (dl, a), some (dr, b) =>
      (F32.div (F32.add (F32.mul a (F32.ofInt (Int.ofNat dr))) (F32.mul b (F32.ofInt (Int.ofNat dl))))
        (F32.ofInt (Int.ofNat (dl + dr))), 4)
    | some (_, a), none => (a, 4)
    | none, some (_, b) => (b, 4)
    | none, none => (0, 5)

/-- The stage-4 value. -/
def fixed (v : FrontView) (x y : Nat) : Nat := if v.cause x y = 0 then (v.pix x y).r else (v.replacement x y).1

/-- Replaced under rule 4 or 5; and under rule 5. -/
def far (v : FrontView) (x y : Nat) : Bool := v.cause x y != 0 && decide (4 ≤ (v.replacement x y).2)
def unresolved (v : FrontView) (x y : Nat) : Bool := v.cause x y != 0 && (v.replacement x y).2 == 5

/-! ### Stage 5: shading, gain, normalization (R280) -/

/-- Map node (i, j) of colour `c`. -/
def node (v : FrontView) (i j c : Nat) : Nat :=
  frac32 (Int.ofNat (leAt v.front (leAt v.front 0x0C 4 + (j * 65 + i) * 8 + 2 * c) 2)) 12

/-- S_c(x, y). -/
def shading (v : FrontView) (c x y : Nat) : Nat :=
  if v.f.regs.fld F.FR_CTRL.SHADING_EN = 0 ∨ leAt v.front 0x0C 4 = 0 then one32
  else
    let s := if v.r.binned then 64 else 128
    let n := if v.r.binned then 6 else 7
    let i := x / s
    let j := y / s
    let fx := frac32 (Int.ofNat (x % s)) n
    let fy := frac32 (Int.ofNat (y % s)) n
    let along (j : Nat) : Nat := F32.add (F32.mul (oneMinus fx) (v.node i j c)) (F32.mul fx (v.node (i + 1) j c))
    F32.add (F32.mul (oneMinus fy) (along j)) (F32.mul fy (along (j + 1)))

/-- The normalized value v: what stage 6 and stage 7 receive. -/
def value (v : FrontView) (x y : Nat) : Nat :=
  let c := colourOf v.mosaic x y
  let wb := frac32 (Int.ofNat (v.f.regs.fld (F.FR_WB.VALUE.el c))) 12
  F32.div (F32.mul (F32.mul (v.fixed x y) (v.shading c x y)) wb)
    (F32.ofInt (Int.ofNat (max 1 (v.f.regs.fld F.FR_NORM.NORM))))

/-- The normalized value at coordinates that may lie outside the array (R281). -/
def at_ (v : FrontView) (x y : Int) : Nat := v.value (v.col 1 x) (v.row 1 y)

/-! ### Stage 6: colour reconstruction (R281 to R283) -/

/-- Of a horizontal and a vertical estimate, the one across the weaker gradient. -/
def edgeChoice (v : FrontView) (gh gv eh ev : Nat) : Nat :=
  let t := oneMinus (frac32 (Int.ofNat (v.f.regs.fld F.FR_EDGE.EDGE_T)) 8)
  if F32.lt gh (F32.mul t gv) then eh
  else if F32.lt gv (F32.mul t gh) then ev
  else F32.div (F32.add eh ev) 0x40000000

/-- One direction of step 1 of R281 from the pixel, its neighbours at distance 1 and at distance 2: gradient, estimate. -/
def green (c a b d e : Nat) : Nat × Nat :=
  let lap := F32.sub (F32.sub (F32.mul 0x40000000 c) d) e
  (F32.add (F32.abs (F32.sub a b)) (F32.abs lap),
   F32.add (F32.div (F32.add a b) 0x40000000) (F32.div lap 0x40800000))

/-- G of EV6050-B at (x, y) (R281 step 1). -/
def greenB (v : FrontView) (x y : Nat) : Nat :=
  if nativeChannel 0 x y = 1 then v.value x y
  else
    let X := Int.ofNat x
    let Y := Int.ofNat y
    let h := green (v.value x y) (v.at_ (X - 1) Y) (v.at_ (X + 1) Y) (v.at_ (X - 2) Y) (v.at_ (X + 2) Y)
    let w := green (v.value x y) (v.at_ X (Y - 1)) (v.at_ X (Y + 1)) (v.at_ X (Y - 2)) (v.at_ X (Y + 2))
    v.edgeChoice h.1 w.1 h.2 w.2

/-- Step 1 of R282 for a plane given by its values at its own sites: the estimate at another site. -/
def cross (v : FrontView) (plane : Nat → Nat → Nat) (x y : Nat) : Nat :=
  let X := Int.ofNat x
  let Y := Int.ofNat y
  let g (x y : Int) : Nat := plane (v.col 1 x) (v.row 1 y)
  let eh := (g (X - 1) Y, g (X + 1) Y)
  let ev := (g X (Y - 1), g X (Y + 1))
  v.edgeChoice (F32.abs (F32.sub eh.1 eh.2)) (F32.abs (F32.sub ev.1 ev.2))
    (F32.mean [eh.1, eh.2]) (F32.mean [ev.1, ev.2])

/-- Coordinates of a window of radius `n` centred on a pixel, in raster order, after the replacement rule. -/
def window (v : FrontView) (n x y : Nat) : List (Nat × Nat) :=
  (List.range (2 * n + 1)).flatMap fun j => (List.range (2 * n + 1)).map fun i =>
    (v.col 1 (Int.ofNat x + Int.ofNat i - Int.ofNat n), v.row 1 (Int.ofNat y + Int.ofNat j - Int.ofNat n))

/-- Channel `ch` at (x, y) from a base plane and the colour differences in a window (R281 to R283). -/
def fromDifference (v : FrontView) (n ch : Nat) (val base : Nat → Nat → Nat) (x y : Nat) : Nat :=
  if nativeChannel v.mosaic x y = ch then val x y
  else
    let ds := ((v.window n x y).filter fun e => nativeChannel v.mosaic e.1 e.2 == ch).map fun e =>
      F32.sub (val e.1 e.2) (base e.1 e.2)
    let d := if ds.isEmpty then (Config.frontUnstated v.f.frame (0x4000000 * (ch + 1) + 8192 * y + x)).toNat
      else F32.mean ds
    F32.add (base x y) d

/-- IRK[c]. -/
def irk (v : FrontView) (c : Nat) : Nat := frac32 (signedOf 16 (v.f.regs.fld (F.FR_IRK.VALUE.el c))) 14

/-- The output channels at (x, y) of EV6050-B. -/
def channelsB (v : FrontView) (x y : Nat) : List Nat :=
  [v.fromDifference 1 0 v.value v.greenB x y, v.greenB x y, v.fromDifference 1 2 v.value v.greenB x y]

/-- The output channels of EV6050-W (R282). -/
def channelsW (v : FrontView) (x y : Nat) : List Nat :=
  let white (x y : Nat) : Nat := if nativeChannel 1 x y = 3 then v.value x y else v.cross v.value x y
  let colours := [0, 1, 2].map fun ch => v.fromDifference 2 ch v.value white x y
  let w := white x y
  let rgb := F32.add (F32.add (colours.getD 0 0) (colours.getD 1 0)) (colours.getD 2 0)
  let ir := F32.mul (F32.max 0 (F32.sub rgb w)) (frac32 (Int.ofNat (v.f.regs.fld F.FR_IRW.VALUE)) 15)
  (colours ++ [w]).mapIdx fun c a => F32.sub a (F32.mul (v.irk c) ir)

/-- IR of EV6050-I at (x, y): the mean of the I values of the 3 × 3 window (R283). -/
def infra (v : FrontView) (x y : Nat) : Nat :=
  F32.mean (((v.window 1 x y).filter fun e => nativeChannel 2 e.1 e.2 == 3).map fun e => v.value e.1 e.2)

/-- The output channels of EV6050-I (R283). -/
def channelsI (v : FrontView) (x y : Nat) : List Nat :=
  let val (x y : Nat) : Nat :=
    let c := colourOf 2 x y
    if c = 3 then v.value x y else F32.sub (v.value x y) (F32.mul (v.irk c) (v.infra x y))
  let g (x y : Nat) : Nat := if nativeChannel 2 x y = 1 then val x y else v.cross val x y
  [v.fromDifference 2 0 val g x y, g x y, v.fromDifference 2 2 val g x y, v.infra x y]

/-- The output channels at (x, y) of the full-scale output. -/
def channels (v : FrontView) (x y : Nat) : List Nat :=
  match v.mosaic with
  | 0 => v.channelsB x y
  | 1 => v.channelsW x y
  | _ => v.channelsI x y

/-- Channel `h` of output pixel (x, y) at a scale: the mean over a block (R285). -/
def scaled (v : FrontView) (scale h x y : Nat) : Nat :=
  if scale = 0 then (v.channels x y).getD h 0
  else
    let n := 2 ^ scale
    F32.mean ((List.range n).flatMap fun j => (List.range n).map fun i => (v.channels (n * x + i) (n * y + j)).getD h 0)

/-! ### Poison (R447): values that depend on a short sample read with a mark -/

/-- A value read among these pixels of stage 3 is marked. -/
def anyMarked (v : FrontView) (ps : List (Nat × Nat)) : Bool :=
  ps.any fun p => v.available p.1 p.2 && (v.pix p.1 p.2).marked

/-- The pixel that rule 4 of R279 takes on one side. -/
def besides (v : FrontView) (x y : Nat) (right : Bool) : List (Nat × Nat) :=
  match v.sideways x y right with
  | some (d, _) => [(if right then x + d else x - d, y)]
  | none => []

/-- The stage-4 value at (x, y), and with it the normalized value, depends on a marked sample. -/
def marked (v : FrontView) (x y : Nat) : Bool :=
  let own := v.available x y
  (own && (v.pix x y).marked) || (own && v.f.regs.fld F.FR_CTRL.DYN_EN == 1 && v.anyMarked (v.near x y)) ||
    (v.cause x y != 0 && v.anyMarked (v.pairH x y ++ v.pairV x y)) ||
    (v.far x y && v.anyMarked (v.besides x y false ++ v.besides x y true))

/-- Some of the pixels at these offsets from (x, y), after the replacement rule, is marked in a plane. -/
def markedAt (v : FrontView) (plane : Nat → Nat → Bool) (x y : Nat) (ds : List (Int × Int)) : Bool :=
  ds.any fun d => plane (v.col 1 (Int.ofNat x + d.1)) (v.row 1 (Int.ofNat y + d.2))

/-- The four neighbours at a distance. -/
def cross4 (n : Int) : List (Int × Int) := [(-n, 0), (n, 0), (0, -n), (0, n)]

/-- Marks of the base plane of each mosaic: G of R281, W of R282, G of R283. -/
def markedBase (v : FrontView) (plane : Nat → Nat → Bool) (x y : Nat) : Bool :=
  let own := match v.mosaic with | 0 => 1 | 1 => 3 | _ => 1
  if nativeChannel v.mosaic x y = own then plane x y
  else if v.mosaic = 0 then plane x y || v.markedAt plane x y (cross4 1 ++ cross4 2)
  else v.markedAt plane x y (cross4 1)

/-- Marks of channel `ch` built from colour differences in a window of radius `n`. -/
def markedDifference (v : FrontView) (n ch : Nat) (plane : Nat → Nat → Bool) (x y : Nat) : Bool :=
  if nativeChannel v.mosaic x y = ch then plane x y
  else v.markedBase plane x y || ((v.window n x y).filter fun e => nativeChannel v.mosaic e.1 e.2 == ch).any fun e =>
    plane e.1 e.2 || v.markedBase plane e.1 e.2

/-- The IR estimate of R283 at (x, y) depends on a marked sample. -/
def markedInfra (v : FrontView) (x y : Nat) : Bool :=
  ((v.window 1 x y).filter fun e => nativeChannel 2 e.1 e.2 == 3).any fun e => v.marked e.1 e.2

/-- Marks of the output channels at (x, y). -/
def markedChannels (v : FrontView) (x y : Nat) : List Bool :=
  match v.mosaic with
  | 0 => [v.markedDifference 1 0 v.marked x y, v.markedBase v.marked x y, v.markedDifference 1 2 v.marked x y]
  | 1 =>
    let all := v.markedBase v.marked x y || [0, 1, 2].any fun ch => v.markedDifference 2 ch v.marked x y
    [all, all, all, all]
  | _ =>
    let plane (x y : Nat) : Bool := v.marked x y || (colourOf 2 x y != 3 && v.markedInfra x y)
    [v.markedDifference 2 0 plane x y, v.markedBase plane x y, v.markedDifference 2 2 plane x y, v.markedInfra x y]

/-- The mark of an output element at a scale. -/
def markedScaled (v : FrontView) (scale h x y : Nat) : Bool :=
  let n := 2 ^ scale
  (List.range n).any fun j => (List.range n).any fun i => (v.markedChannels (n * x + i) (n * y + j)).getD h false

/-! ### Stage 7: statistics (R287) -/

/-- A pixel that the statistics use. -/
def counts (v : FrontView) (x y : Nat) : Bool := !(v.pix x y).sat && v.cause x y == 0

/-- MEAN_c and VAR_c of the tile whose top left pixel is (x0, y0). -/
def tileStat (v : FrontView) (x0 y0 c : Nat) : Nat × Nat :=
  let ps := ((List.range 64).flatMap fun j => (List.range 64).map fun i => (x0 + i, y0 + j)).filter fun p =>
    colourOf v.mosaic p.1 p.2 == c && v.counts p.1 p.2
  let pairs := ps.filter fun p => decide (p.1 + v.k < x0 + 64) && v.counts (p.1 + v.k) p.2
  if ps.isEmpty || pairs.isEmpty then (0x7E00, 0x7E00)
  else
    let sq := pairs.map fun p =>
      let d := F32.sub (v.value p.1 p.2) (v.value (p.1 + v.k) p.2)
      F32.mul d d
    (f16 (ofF32 (F32.mean (ps.map fun p => v.value p.1 p.2))),
     f16 (ofF32 (F32.div (F32.sum sq) (F32.ofInt (Int.ofNat (2 * pairs.length))))))

/-- A tile's 32 bytes; a field carries the mark when a pixel it depends on does. -/
def tileRecord (v : FrontView) (x0 y0 : Nat) (lost : Bool) : List MByte :=
  let all := (List.range 64).flatMap fun j => (List.range 64).map fun i => (x0 + i, y0 + j)
  let stats := (List.range 4).map (v.tileStat x0 y0)
  let n (p : Nat × Nat → Bool) : List Byte := leBytes 2 (all.filter p).length
  let half (c k : Nat) : List MByte :=
    let m := all.any fun p => colourOf v.mosaic p.1 p.2 == c && v.marked p.1 p.2
    (leBytes 2 k).map fun b => ⟨b, m⟩
  let some_ := all.any fun p => v.marked p.1 p.2
  (stats.zipIdx.flatMap fun e => half e.2 e.1.1) ++ (stats.zipIdx.flatMap fun e => half e.2 e.1.2) ++
    (n (fun p => (v.pix p.1 p.2).sat) ++ n (fun p => v.cause p.1 p.2 != 0) ++ n (fun p => (v.pix p.1 p.2).motion)).map
      (fun b => ⟨b, some_⟩) ++
    (leBytes 2 (lost.toNat + 2 * (!v.f.settled).toNat) ++ leBytes 8 0).map MByte.clean

end FrontView

/-! ### Writing rows (R284 to R287) -/

/-- Rows that an output row depends on beyond itself. -/
def rowLag (mosaic : Nat) : Nat := if mosaic = 0 then 5 else 8

/-- The view of a frame in the pipeline. -/
def Chip.frontView (c : Chip) (f : FrontFrame) : FrontView :=
  let im := c.wiring f.old
  let list := (List.range (leAt im.front 4 2)).map fun i =>
    let w := leAt im.front (leAt im.front 8 4 + 4 * i) 4
    (w / 65536 % 8192, w % 8192)
  { f := f, r := im.readout, mosaic := c.mosaic, defects := otpDefects (c.otpInForce 5) ++ list, front := im.front }

/-- The 16 bits of an element. -/
def elementBits (fmt v : Nat) : Nat := if fmt = 1 then log10Code (ofF32 v) else f16 (ofF32 v)

/-- Write row `y` of an output, and push its band's word, which holds no sample, after the band's last row (R285, R286). -/
def Chip.frontOutRow (c : Chip) (v : FrontView) (i : Nat) (o : OutDesc) (y : Nat) : Chip :=
  let n := outChannels v.mosaic
  let w := v.r.width / 2 ^ o.scale
  let c := (List.range w).foldl (fun c x => (List.range n).foldl (fun c h =>
    c.memWrite 0 (o.offset n w h x y)
      ((leBytes 2 (elementBits o.fmt (v.scaled o.scale h x y))).map fun b => ⟨b, v.markedScaled o.scale h x y⟩)) c) c
  if o.queue ≠ 0xFFFF ∧ (y + 1) % o.th = 0 then
    let b := y / o.th
    let rows := o.th * 2 ^ o.scale
    let far := (List.range rows).any fun j => (List.range v.r.width).any fun x => v.far x (b * rows + j)
    let word := leBytes 4 v.f.frame ++ leBytes 2 b ++ leBytes 1 i ++ leBytes 1 (far.toNat + 2 * (!v.f.settled).toNat)
    ((c.countFlits (QDesc.cls (c.mem.descriptor o.queue)) 2).qPush o.queue (word.map MByte.clean) false).2
  else c

/-- The statistics of a row of tiles. -/
def Chip.frontStats (c : Chip) (v : FrontView) (ty : Nat) : Chip :=
  let n := v.r.width / 64
  let groups := if v.r.binned then 8 else 4
  let base := leAt v.front 0x14 4 + v.f.frame % 2 * (32 * n * (v.r.rows / 64))
  (List.range n).foldl (fun c tx =>
    let lost := (List.range groups).any fun g => (c.terrace.group (groups * tx + g)).mode == 4
    c.memWrite 0 (base + 32 * (ty * n + tx)) (v.tileRecord (64 * tx) (64 * ty) lost)) c

/-- Full-scale output row `y` is written, and what completes with it. -/
def Chip.frontRow (c : Chip) (v : FrontView) (y : Nat) : Chip :=
  let c := if (List.range v.r.width).any fun x => v.unresolved x y then
      c.frontTell v.f.frame 4 F.FR_EVENTS.DEFECT_UNRESOLVED Code.DEFECT_UNRESOLVED
    else c
  let c := ((c.wiring v.f.old).outs.zipIdx).foldl (fun c o =>
    if (y + 1) % 2 ^ o.1.scale = 0 then c.frontOutRow v o.2 o.1 (y / 2 ^ o.1.scale) else c) c
  let c := if v.f.regs.fld F.FR_CTRL.STATS_EN = 1 ∧ (y + 1) % 64 = 0 then c.frontStats v (y / 64) else c
  c.set F.FR_STATUS.ROW y

/-- The counts of a completed frame. -/
def FrontView.totals (v : FrontView) : List Nat :=
  let all := (List.range v.r.rows).flatMap fun y => (List.range v.r.width).map fun x => (x, y)
  let n (p : Nat × Nat → Bool) : Nat := (all.filter p).length
  [n fun p => v.cause p.1 p.2 == 1, n fun p => v.cause p.1 p.2 == 2, n fun p => v.cause p.1 p.2 == 3,
   n fun p => (v.pix p.1 p.2).motion, n fun p => (v.pix p.1 p.2).sat]

/-- Write the output rows that have become possible; `fuel` bounds how many. A completed frame leaves the pipeline. -/
def Chip.frontRows (c : Chip) (frame : Nat) : Nat → Chip
  | 0 => c
  | fuel + 1 =>
    match c.front.find? fun f => f.frame == frame with
    | none => c
    | some f =>
      let v := c.frontView f
      if f.rowsOut < v.r.rows ∧ (f.rowsOut + rowLag c.mosaic < f.rowsIn ∨ f.rowsIn = v.r.rows) then
        let c := (c.frontRow v f.rowsOut).frontUpd frame fun f => { f with rowsOut := f.rowsOut + 1 }
        c.frontRows frame fuel
      else if f.rowsOut = v.r.rows then
        let t := v.totals
        let c := { c with front := c.front.filter fun f => f.frame != frame }
        let c := (c.set F.FR_FRAME.FRAME frame).setBit F.FR_STATUS.ACTIVE (!c.front.isEmpty)
        let c := (c.put A.FR_CNT_STATIC (Word.of (t.getD 0 0))).put A.FR_CNT_DYN (Word.of (t.getD 1 0))
        let c := (c.put A.FR_CNT_MISSING (Word.of (t.getD 2 0))).put A.FR_CNT_MOTION (Word.of (t.getD 3 0))
        (c.put A.FR_CNT_SAT (Word.of (t.getD 4 0))).metaUpd frame fun m => { m with counts := t }
      else c

/-! ### A sample arrives (R266, R267) -/

/-- Input code 65 536 stands for MISSING. -/
abbrev missingCode : Nat := 65536

/-- Basin offset of a pixel in the short-sample store. -/
def shortOffset (front : List Byte) (r : Readout) (x y : Nat) : Nat :=
  leAt front 0x10 4 + y % (r.lead + 1) * (2 * r.width) + 2 * x

/-- A short read is stored after stage 1; a MISSING one is marked in the bit-map (R267). -/
def Chip.frontShort (c : Chip) (r : Readout) (f : FrontFrame) (x y u : Nat) : Chip :=
  let key := y * 8192 + x
  let c := c.frontUpd f.frame fun f =>
    { f with shortMissing := Sparse.set (fun _ => false) f.shortMissing key (u == missingCode) }
  if u = missingCode then c
  else c.memWrite 0 (shortOffset (c.wiring f.old).front r x y) ((leBytes 2 u).map MByte.clean)

/-- The electrons of a reading, in binary32, and its input code after the trim (R271, R273, R275). -/
def Chip.frontElectrons (c : Chip) (f : FrontFrame) (r : Readout) (p x y u : Nat) : Nat × Nat :=
  let high := f.highGain r p
  let u' := c.trimmed high u
  let index := (if r.phaseShort p then 8 else 0) + 4 * high.toNat + colourOf c.mosaic x y
  (u', frac32 (linearize ((c.wiring f.old).curve 1 index) u') 6)

/-- The last reading of a pixel has arrived: its codes are those held, the short one comes from the Basins. -/
def Chip.frontMerge (c : Chip) (r : Readout) (f : FrontFrame) (x y : Nat) (codes : List Nat) : Chip :=
  let key := y * 8192 + x
  let longs := codes.mapIdx fun p u => c.frontElectrons f r p x y u
  let bits := c.memRead .engine 0 (shortOffset (c.wiring f.old).front r x y) 2
  let c := if r.short && !(codes.contains missingCode) && !(Sparse.get (fun _ => false) f.shortMissing key) then bits.2 else c
  let gone := codes.contains missingCode || (r.short && Sparse.get (fun _ => false) f.shortMissing key)
  let short := if r.short then
      some (c.frontElectrons f r (r.phases - 1) x y (leNat (bits.1.map fun b : MByte => b.v)))
    else none
  let p : Pix := if gone then Pix.absent
    else { f.merge key longs short with marked := r.short && bits.1.any fun b : MByte => b.p }
  let c := c.frontUpd f.frame fun f =>
    { f with pix := Sparse.set (fun _ => Pix.absent) f.pix key p,
             rowsIn := if x + 1 = r.width then y + 1 else f.rowsIn }
  if x + 1 = r.width then c.frontRows f.frame (r.rows + 1) else c

/-- An active sample. -/
def Chip.frontActive (c : Chip) (r : Readout) (f : FrontFrame) (s : Sample) (y : Nat) : Chip :=
  let u := match s.code with
    | some v => f.inputCode r s.phase s.col y v
    | none => missingCode
  if r.phaseShort s.phase then c.frontShort r f s.col y u
  else
    let longs := r.phases - r.short.toNat
    if s.phase + 1 < longs then
      c.frontUpd f.frame fun f => { f with held := (f.held.filter fun e : Nat × Nat => e.1 != 4 * s.col + s.phase) ++ [(4 * s.col + s.phase, u)] }
    else
      let held := (List.range (longs - 1)).map fun p =>
        ((f.held.find? fun e : Nat × Nat => e.1 == 4 * s.col + p).map (·.2)).getD missingCode
      c.frontMerge r f s.col y (held ++ [u])

/-- SAMPLE_ARRIVAL: the oldest sample on its way is processed; a sample of a frame no longer in the pipeline is lost. -/
def Chip.sampleArrival (c : Chip) : Chip :=
  match c.terrace.samples with
  | [] => c
  | s :: rest =>
    let c := { c with terrace := { c.terrace with samples := rest } }
    match c.front.find? fun f => f.frame == s.frame with
    | none => c
    | some f =>
      let c := c.setBit F.FR_STATUS.ACTIVE true
      let r := (c.wiring f.old).readout
      match r.rowAt (if r.phaseShort s.phase then s.k + Int.ofNat r.lead else s.k) with
      | none => c
      | some (active, y) =>
        if 8192 ≤ s.col then c.frontAverage r f s (if active then none else some y)
        else if active then c.frontActive r f s y
        else c.frontOb r f s y

/-- SAMPLE_ARRIVAL. -/
def execSampleArrival (s : State) : Host.Outcome State Fault Refusal := act .sampleArrival (fun _ c => c.sampleArrival) s

end Sys2Proof.Machine
end

