-- ==== Sys2Proof/Machine/Engine.lean ====
section
/-!
DEFINITION. Machine/Engine.lean: what a terrace of a Vale or of the Saddle computes: number formats (R293, R294), the MAC
array (R295 to R298), requantization (R299), the vector unit (R300 to R303), transforms (R304, R305), the estimator (R307,
R308), and the Saddle's post-processors (R345 to R347). How poison spreads over waves is log entry 21.
-/
namespace Sys2Proof.Machine

/-! ### Tensors -/

/-- An element: an integer, or the bits of a floating format; the imaginary part of a complex one; its poison mark. -/
structure Elt where
  v : Int
  im : Nat
  p : Bool
  deriving DecidableEq, Repr

/-- Formats of R293, and the accumulator of the array. -/
abbrev Fmt.INT8 : Nat := 0
abbrev Fmt.INT4 : Nat := 1
abbrev Fmt.FP16 : Nat := 2
abbrev Fmt.FP32 : Nat := 3
abbrev Fmt.INT32 : Nat := 4
abbrev Fmt.LOG10 : Nat := 5
abbrev Fmt.CF32 : Nat := 6
abbrev Fmt.MASK : Nat := 7
abbrev Fmt.ACC : Nat := 8

/-- Bits of an element in memory. -/
def fmtBits : Nat → Nat
  | 0 => 8 | 1 => 4 | 2 => 16 | 3 => 32 | 4 => 32 | 5 => 16 | 6 => 64 | _ => 8

/-- Bytes of a row of `n` elements. -/
def rowSize (fmt n : Nat) : Nat := (n * fmtBits fmt + 7) / 8

/-- Rows of elements in one format. -/
structure Tensor where
  fmt : Nat
  rows : List (List Elt)
  deriving DecidableEq, Repr

/-- No rows. -/
abbrev Tensor.none : Tensor := ⟨0, []⟩

/-- The first `n` elements of every row. -/
def Tensor.cut (t : Tensor) (n : Nat) : Tensor := { t with rows := t.rows.map fun r => r.take n }

/-- An element of an integer format from its bytes, or of a floating one. -/
def Elt.ofBytes (fmt : Nat) (bs : List MByte) : Elt :=
  let b := bs.map fun x : MByte => x.v
  let p := bs.any fun x : MByte => x.p
  match fmt with
  | 0 => ⟨sleAt b 0 1, 0, p⟩
  | 4 => ⟨sleAt b 0 4, 0, p⟩
  | 6 => ⟨Int.ofNat (leAt b 0 4), leAt b 4 4, p⟩
  | _ => ⟨Int.ofNat (leNat b), 0, p⟩

/-- The elements of a row of `n`, from its bytes (R293). -/
def rowElts (fmt n : Nat) (bs : List MByte) : List Elt :=
  if fmt = Fmt.INT4 then
    (List.range n).map fun e =>
      let b := bs.getD (e / 2) ⟨0, false⟩
      ⟨signedOf 4 (if e % 2 = 0 then b.v.toNat else b.v.toNat / 16), 0, b.p⟩
  else
    let k := fmtBits fmt / 8
    (List.range n).map fun e => Elt.ofBytes fmt ((bs.drop (k * e)).take k)

/-- An integer saturated to INT32 (R296). -/
def sat32 (i : Int) : Int := clampInt (-0x80000000) 0x7FFFFFFF i

/-- The bytes of an element. -/
def Elt.bytes (fmt : Nat) (e : Elt) : List MByte :=
  let bs : List Byte := match fmt with
    | 2 => leBytes 2 e.v.toNat
    | 3 => leBytes 4 e.v.toNat
    | 4 => leBytes 4 (patternOf 32 e.v)
    | 5 => leBytes 2 e.v.toNat
    | 6 => leBytes 4 e.v.toNat ++ leBytes 4 e.im
    | 8 => leBytes 4 (patternOf 32 (sat32 e.v))
    | _ => leBytes 1 (patternOf 8 e.v)
  bs.map fun b => ⟨b, e.p⟩

/-- The bytes of a row; `odd` is the last half byte of an INT4 row with an odd number of elements. -/
def rowBytes (fmt odd : Nat) (es : List Elt) : List MByte :=
  if fmt = Fmt.INT4 then
    (List.range ((es.length + 1) / 2)).map fun i =>
      let lo := es.getD (2 * i) ⟨0, 0, false⟩
      match es[2 * i + 1]? with
      | some hi => ⟨Byte.of (patternOf 4 lo.v + 16 * patternOf 4 hi.v), lo.p || hi.p⟩
      | none => ⟨Byte.of (patternOf 4 lo.v + 16 * odd), lo.p⟩
  else es.flatMap (Elt.bytes fmt)

/-- binary32 that a floating operation takes for an element, and whether the element was a NaN (R294). -/
def Elt.real (fmt : Nat) (e : Elt) : Nat × Bool :=
  match fmt with
  | 2 => f16In e.v.toNat
  | 3 => engineIn e.v.toNat
  | 5 => (log10In (e.v.toNat % 1024), false)
  | 6 => engineIn e.v.toNat
  | 8 => (FE.ofInt (sat32 e.v), false)
  | _ => (FE.ofInt e.v, false)

/-- The complex number that an element is, and whether a part of it was a NaN; a real one enters as (x, +0.0) (R304). -/
def Elt.complex (fmt : Nat) (e : Elt) : (Nat × Nat) × Bool :=
  let re := e.real fmt
  if fmt = Fmt.CF32 then
    let im := engineIn e.im
    ((re.1, im.1), re.2 || im.2)
  else ((re.1, 0), re.2)

/-- A binary32 result as an element of an output format (R294). -/
def Elt.ofReal (fmt : Nat) (b : Nat) (p : Bool) : Elt :=
  match fmt with
  | 2 => ⟨Int.ofNat (f16 (ofF32 b)), 0, p⟩
  | 4 => ⟨intFormat 32 (ofF32 b), 0, p⟩
  | 0 => ⟨intFormat 8 (ofF32 b), 0, p⟩
  | _ => ⟨Int.ofNat b, 0, p⟩

/-! ### What an iteration reports -/

/-- Events of an iteration: a NaN input, saturated results, pairs skipped, chunks omitted. -/
structure Note where
  nan : Bool
  sat : Nat
  pairs : Nat
  chunks : Nat
  deriving DecidableEq, Repr

abbrev Note.none : Note := ⟨false, 0, 0, 0⟩

/-- Events of two parts. -/
def Note.add (a b : Note) : Note := ⟨a.nan || b.nan, a.sat + b.sat, a.pairs + b.pairs, a.chunks + b.chunks⟩

/-- The widths of an engine: reduction chunk, channel block, vector lanes (R292, R325). -/
structure Widths where
  chunk : Nat
  block : Nat
  lanes : Nat
  deriving DecidableEq, Repr

/-- The widths of a lane's engine: 0 to 5 a Vale, 6 the Saddle. -/
def widthsOf (lane : Nat) : Widths := if lane = 6 then ⟨32, 32, 64⟩ else ⟨64, 64, 256⟩

/-! ### Poison over waves (R312, R313) -/

/-- Cut a list into groups of `w`; `fuel` bounds how many. -/
def groupsOf {α : Type} (w : Nat) : Nat → List α → List (List α)
  | 0, _ => []
  | fuel + 1, xs => if xs.isEmpty then [] else xs.take w :: groupsOf w fuel (xs.drop w)

/-- Every element of a wave takes the mark when one has it: waves of `w` elements in ascending order over all rows. -/
def markWaves (w : Nat) (rows : List (List Elt)) : List (List Elt) :=
  let flat := rows.flatMap id
  let marked := (groupsOf (max 1 w) flat.length flat).flatMap fun g =>
    let p := g.any fun e : Elt => e.p
    g.map fun e : Elt => { e with p := p }
  (rows.foldl (fun (acc : List (List Elt) × List Elt) r => (acc.1 ++ [acc.2.take r.length], acc.2.drop r.length))
    ([], marked)).1

/-- Every element of a row takes the mark when one has it. -/
def markRow (p : Bool) (r : List Elt) : List Elt := r.map fun e : Elt => { e with p := p }

/-- A row holds a marked element. -/
def rowPoison (r : List Elt) : Bool := r.any fun e : Elt => e.p

/-! ### The MAC array -/

/-- Sum of a list of 2^n numbers, in a balanced tree of `n` levels, one rounding per addition (R297). -/
def treeSum : Nat → List Nat → Nat
  | 0, xs => xs.headD 0
  | n + 1, xs => FE.add (treeSum n (xs.take (2 ^ n))) (treeSum n (xs.drop (2 ^ n)))

/-- A list made up to `n` entries with +0.0. -/
def padZero (n : Nat) (xs : List Nat) : List Nat := xs ++ List.replicate (n - xs.length) 0

/-- Sum of groups of `w` = 2^levels values: each group in its tree, the group sums in ascending order (R297, R301). -/
def groupSum (w : Nat) (xs : List Nat) : Nat :=
  match (groupsOf w (xs.length / w + 1) xs).map fun g => treeSum (Nat.log2 w) (padZero w g) with
  | [] => 0
  | s :: ss => ss.foldl FE.add s

/-- A mask of an estimator omits 64-position chunk `c` for the 64-query block of row `m` (R308). -/
def SkipMask.omits (k : SkipMask) (m c : Nat) : Bool :=
  let r0 := m / 64 * 64
  (List.range (min 64 (k.rows - r0))).all fun i =>
    (List.range (min 64 (k.cols - 64 * c))).all fun j => !(k.kept.getD ((r0 + i) * k.cols + 64 * c + j) true)

/-- A marked mask bit decides whether one of the chunks of row `m`'s block is omitted: the block's outputs depend on it (R447). -/
def SkipMask.marked (k : SkipMask) (m : Nat) : Bool :=
  let r0 := m / 64 * 64
  (List.range (min 64 (k.rows - r0))).any fun i => (List.range k.cols).any fun j => k.marks.getD ((r0 + i) * k.cols + j) false

/-- Chunks that a mask omits for row `m` of a reduction of `n` positions. -/
def omittedChunks (mask : Option SkipMask) (m n : Nat) : List Nat :=
  match mask with
  | none => []
  | some k => (List.range ((n + 63) / 64)).filter (k.omits m)

/-- An operand row with the positions of omitted chunks taken out: their products are +0.0, and no mark of theirs counts. -/
def withoutChunks (gone : List Nat) (r : List Elt) : List Elt :=
  if gone.isEmpty then r else r.zipIdx.map fun x => if gone.contains (x.2 / 64) then ⟨0, 0, false⟩ else x.1

/-- Exact dot product of two integer rows. -/
def intDot (a b : List Elt) : Int := (List.zipWith (fun (x y : Elt) => x.v * y.v) a b).foldl (· + ·) 0

/-- Sum of products of two FP16 rows (R297). -/
def halfDot (w : Nat) (a b : List Elt) : Nat :=
  groupSum w (List.zipWith (fun (x y : Elt) => FE.mul (f16In x.v.toNat).1 (f16In y.v.toNat).1) a b)

/-- A row holds a NaN in its format. -/
def rowNan (fmt : Nat) (r : List Elt) : Bool := r.any fun e : Elt => (e.complex fmt).2

/-- ARRAY: M positions by N channels over K (R295 to R298). -/
def arrayTerrace (w : Widths) (op : Nat) (mask : Option SkipMask) (a b : Tensor) : Tensor × Note :=
  let k := (a.rows.headD []).length
  let blocks := groupsOf w.block b.rows.length b.rows
  let rows := (groupsOf 64 a.rows.length a.rows).zipIdx.flatMap fun g =>
    let gone := omittedChunks mask (64 * g.2) k
    let acts := g.1.map (withoutChunks gone)
    let pa := acts.any rowPoison || mask.any fun k => k.marked (64 * g.2)
    let marks := blocks.map fun ws => pa || ws.any fun r => rowPoison (withoutChunks gone r)
    acts.map fun act =>
      (blocks.zip marks).flatMap fun bm => bm.1.map fun wt =>
        let v := if op = 3 then Int.ofNat (halfDot w.chunk act (withoutChunks gone wt)) else intDot act wt
        (⟨v, 0, bm.2⟩ : Elt)
  let groups := (a.rows.length + 63) / 64
  let omitted := (List.range groups).foldl (fun n g => n + (omittedChunks mask (64 * g) k).length) 0
  let nan := op == 3 && (List.range groups).any fun g =>
    let gone := omittedChunks mask (64 * g) k
    (((a.rows.drop (64 * g)).take 64) ++ b.rows).any fun r => rowNan Fmt.FP16 (withoutChunks gone r)
  (⟨if op = 3 then Fmt.FP32 else Fmt.ACC, rows⟩, ⟨nan, 0, 0, omitted * blocks.length⟩)

/-! ### Requantization (R299) -/

/-- One parameter record. -/
structure ReqRec where
  bias : Int
  mult : Nat
  shift : Int
  zp : Int
  lo : Int
  hi : Int
  deriving DecidableEq, Repr

/-- The record of channel `n`. -/
def reqRec (consts : List Byte) (at0 n : Nat) : ReqRec :=
  let b := sliceOf consts (at0 + 12 * n) 12
  { bias := sleAt b 0 4, mult := leAt b 4 4, shift := sleAt b 8 1, zp := sleAt b 9 1, lo := sleAt b 10 1, hi := sleAt b 11 1 }

/-- A value of codes 1, 2 and 5 before its clamp, and clamped. -/
def ReqRec.clamped (r : ReqRec) (bits : Nat) (y : Int) : Int × Bool :=
  let y := y + r.zp
  (clampInt r.lo r.hi y, decide (y < -(2 ^ (bits - 1))) || decide (2 ^ (bits - 1) - 1 < y))

/-- One result: its value, whether it saturated, whether an input was a NaN. -/
def requantOne (op fmt : Nat) (r : ReqRec) (e : Elt) : Int × Bool × Bool :=
  match op with
  | 1 | 2 =>
    let y := r.clamped (if op = 1 then 8 else 4) (rne ((e.v + r.bias) * Int.ofNat r.mult) (2 ^ (31 + r.shift).toNat))
    (y.1, y.2, false)
  | 3 =>
    let m := engineIn r.mult
    (Int.ofNat (f16 (ofF32 (FE.mul (FE.ofInt (e.v + r.bias)) m.1))), false, m.2)
  | 4 => (Int.ofNat (f16 (ofF32 (e.real fmt).1)), false, (e.real fmt).2)
  | _ =>
    let m := engineIn r.mult
    let y := r.clamped 8 (ofF32 (FE.mul (e.real fmt).1 m.1)).toInt
    (y.1, y.2, (e.real fmt).2 || m.2)

/-- REQUANT. -/
def requantTerrace (w : Widths) (op param : Nat) (consts : List Byte) (a : Tensor) : Tensor × Note :=
  let res := (markWaves (64 * w.lanes) a.rows).map fun row => row.zipIdx.map fun e =>
    let y := requantOne op a.fmt (reqRec consts param e.2) e.1
    ((⟨y.1, 0, e.1.p⟩ : Elt), y.2)
  let all := res.flatMap id
  let fmt := match op with | 1 | 5 => Fmt.INT8 | 2 => Fmt.INT4 | _ => Fmt.FP16
  (⟨fmt, res.map fun row => row.map (·.1)⟩, ⟨all.any fun x => x.2.2, (all.filter fun x => x.2.1).length, 0, 0⟩)

/-! ### The vector unit (R300 to R303) -/

/-- Cost of a vector operation per vector (R300); the size of its waves follows from it. -/
def vectorCost : Nat → Nat
  | 0x08 => 2 | 0x09 => 2 | 0x0A => 3 | 0x0B => 4 | 0x0C => 4 | 0x0D => 8 | 0x0E => 8 | 0x0F => 8 | 0x10 => 8 | 0x11 => 8
  | 0x12 => 16 | 0x13 => 12 | 0x14 => 12 | 0x18 => 2 | _ => 1

/-- Operations on two operands. -/
def vectorBinary (op : Nat) : Bool := (decide (1 ≤ op) && decide (op ≤ 6)) || op == 0x18

/-- Row reductions: one element a row. -/
def vectorReduces (op : Nat) : Bool := op == 0x15 || op == 0x16 || op == 0x17

/-- A real element-wise operation. -/
def vectorOne (op imm a b : Nat) : Nat :=
  match op with
  | 0x01 => FE.add a b
  | 0x02 => FE.sub a b
  | 0x03 => FE.mul a b
  | 0x04 => FE.min a b
  | 0x05 => FE.max a b
  | 0x06 => FE.fma a imm b
  | 0x08 => FE.exp a
  | 0x09 => FE.log2 a
  | 0x0A => FE.mul (FE.log2 a) 0x3F317218
  | 0x0B => FE.rcp a
  | 0x0C => FE.sqrt a
  | 0x0D => FE.rsqrt a
  | 0x0E => FE.sigmoid a
  | 0x0F => FE.sub (FE.mul 0x40000000 (FE.sigmoid (FE.mul 0x40000000 a))) 0x3F800000
  | 0x10 => FE.mul a (FE.sigmoid a)
  | 0x11 => FE.mul a (FE.sigmoid (FE.mul 0x3FD9DB23 a))
  | _ => a

/-- Complex product of R305. -/
def cmul (u w : Nat × Nat) : Nat × Nat :=
  (FE.fma u.1 w.1 (FE.neg (FE.mul u.2 w.2)), FE.fma u.1 w.2 (FE.mul u.2 w.1))

/-- The largest of a list, the first of equals. -/
def maxOf (xs : List Nat) : Nat :=
  match xs with
  | [] => 0
  | x :: xs => xs.foldl FE.max x

/-- Index of the largest, the lowest of equals. -/
def argMax (xs : List Nat) : Nat :=
  (xs.zipIdx.foldl (fun (best : Option (Nat × Nat)) x =>
    match best with
    | none => some x
    | some b => if FE.lt b.1 x.1 then some x else some b) none).elim 0 (·.2)

/-- SOFTMAX of a row, with the pairs kept. -/
def softmaxRow (lanes : Nat) (xs : List Nat) (kept : List Bool) : List Nat :=
  let on := (xs.zip kept).filter fun x => x.2
  if on.isEmpty then xs.map fun _ => 0
  else
    let mx := maxOf (on.map (·.1))
    let es := (xs.zip kept).map fun x => if x.2 then FE.exp (FE.sub x.1 mx) else 0
    let r := FE.rcp (groupSum lanes es)
    es.map fun e => FE.mul e r

/-- FP16 constants of a norm: `n` elements from an offset. -/
def normConsts (consts : List Byte) (at0 n : Nat) : List (Nat × Bool) :=
  (List.range n).map fun i => f16In (leAt consts (at0 + 2 * i) 2)

/-- LAYERNORM and RMSNORM of a row. -/
def normRow (lanes : Nat) (centre : Bool) (eps : Nat) (gamma beta : List Nat) (xs : List Nat) : List Nat :=
  let c := FE.rcp (FE.ofInt (Int.ofNat xs.length))
  let ds := if centre then
      let mu := FE.mul (groupSum lanes xs) c
      xs.map fun x => FE.sub x mu
    else xs
  let v := FE.mul (groupSum lanes (ds.map fun d => FE.mul d d)) c
  let r := FE.rsqrt (FE.add v eps)
  if centre then (ds.zip (gamma.zip beta)).map fun d => FE.fma (FE.mul d.1 r) d.2.1 d.2.2
  else (ds.zip gamma).map fun d => FE.mul (FE.mul d.1 r) d.2

/-- An operation on whole rows. -/
def vectorRow (w : Widths) (op fmt imm param : Nat) (consts : List Byte) (xs : List Nat) (kept : List Bool) : List Int :=
  let reals (ys : List Nat) : List Int := ys.map fun y => (Elt.ofReal fmt y false).v
  let gamma := (normConsts consts param xs.length).map (·.1)
  let beta := (normConsts consts (param + 2 * xs.length) xs.length).map (·.1)
  match op with
  | 0x12 => reals (softmaxRow w.lanes xs kept)
  | 0x13 => reals (normRow w.lanes true imm gamma beta xs)
  | 0x14 => reals (normRow w.lanes false imm gamma beta xs)
  | 0x15 => reals [groupSum w.lanes xs]
  | 0x16 => reals [maxOf xs]
  | _ => [Int.ofNat (argMax xs)]

/-- VECTOR. `b` is the second operand, if SRC_B names one; a MASK tensor goes to SOFTMAX. -/
def vectorTerrace (w : Widths) (op fmt p0 p1 : Nat) (consts : List Byte) (a : Tensor) (b : Option Tensor) : Tensor × Note :=
  let imm := engineIn p0
  if op = 0x12 ∨ op = 0x13 ∨ op = 0x14 ∨ vectorReduces op then
    let rows := a.rows.zipIdx.map fun r =>
      let ks := (b.map fun t : Tensor => t.rows.getD r.2 []).getD []
      let p := rowPoison r.1 || rowPoison ks
      let kept := if b.isSome then ks.map fun e : Elt => e.v != 0 else r.1.map fun _ => true
      (vectorRow w op fmt imm.1 p1 consts (r.1.map fun e : Elt => (e.real a.fmt).1) kept).map fun v => (⟨v, 0, p⟩ : Elt)
    let n := (a.rows.headD []).length
    let cs := if op = 0x13 then normConsts consts p1 (2 * n) else if op = 0x14 then normConsts consts p1 n else []
    let eps := (op == 0x13 || op == 0x14) && imm.2
    (⟨fmt, rows⟩, ⟨a.rows.any (rowNan a.fmt) || cs.any (·.2) || eps, 0, 0, 0⟩)
  else
    let bFmt := (b.map fun t : Tensor => t.fmt).getD Fmt.FP32
    let immE : Elt := ⟨Int.ofNat p0, 0, false⟩
    let rows := a.rows.zipIdx.map fun r => r.1.zipIdx.map fun x =>
      let eb := match b with
        | some t => (t.rows.getD r.2 []).getD x.2 ⟨0, 0, false⟩
        | none => immE
      let p := x.1.p || (vectorBinary op && eb.p)
      if op = 0x18 then
        let y := cmul (x.1.complex a.fmt).1 (eb.complex bFmt).1
        (⟨Int.ofNat y.1, y.2, p⟩ : Elt)
      else Elt.ofReal fmt (vectorOne op imm.1 (x.1.real a.fmt).1 (eb.real bFmt).1) p
    let nanB := vectorBinary op && (match b with | some t => t.rows.any (rowNan t.fmt) | none => imm.2)
    let nan := a.rows.any (rowNan a.fmt) || nanB || (op == 0x06 && imm.2)
    (⟨fmt, markWaves (64 / vectorCost op * w.lanes) rows⟩, ⟨nan, 0, 0, 0⟩)

/-! ### Transforms (R304, R305) -/

abbrev Cx := Nat × Nat

def cadd (a b : Cx) : Cx := (FE.add a.1 b.1, FE.add a.2 b.2)
def csub (a b : Cx) : Cx := (FE.sub a.1 b.1, FE.sub a.2 b.2)

/-- j·a. -/
def cj (a : Cx) : Cx := (FE.neg a.2, a.1)

/-- The twiddle W[k] of an N-point transform. -/
def twiddle (inv : Bool) (n k : Nat) : Cx :=
  let i := k * (256 / n)
  let s := f32z (sinOf i)
  (f32z (cosOf i), if inv then s else FE.neg s)

/-- A butterfly. -/
def butterfly (inv : Bool) (a : List Cx) : List Cx :=
  match a with
  | [a0, a1, a2, a3] =>
    let t0 := cadd a0 a2
    let t1 := csub a0 a2
    let t2 := cadd a1 a3
    let t3 := cj (csub a1 a3)
    let dn := csub t1 t3
    let up := cadd t1 t3
    [cadd t0 t2, if inv then up else dn, csub t0 t2, if inv then dn else up]
  | [a0, a1] => [cadd a0 a1, csub a0 a1]
  | _ => a

/-- The value at an index written last by a list of writes, built in index order. -/
def scatter (n : Nat) (ws : List (Nat × Cx)) : List Cx :=
  (List.range n).map fun i => ((ws.find? fun w => w.1 == i).map (·.2)).getD (0, 0)

/-- One stage of radix `rad`. -/
def fftStage (inv : Bool) (n m rad : Nat) (x : List Cx) : List Cx :=
  let l := n / (m * rad)
  scatter n ((List.range l).flatMap fun j => (List.range m).flatMap fun k =>
    let b := butterfly inv ((List.range rad).map fun q => x.getD (k + m * (j + q * l)) (0, 0))
    b.zipIdx.map fun y =>
      (k + m * (rad * j + y.2), if y.2 * j = 0 then y.1 else cmul y.1 (twiddle inv n (y.2 * j * m % n))))

/-- The stages of a transform of `n` points: the radices in order. -/
def fftRadices (t : Nat) : List Nat := List.replicate (t / 2) 4 ++ (if t % 2 = 1 then [2] else [])

/-- A one-dimensional transform of 2^t points, before the inverse's scaling. -/
def fft1 (inv : Bool) (t : Nat) (x : List Cx) : List Cx :=
  ((fftRadices t).foldl (fun (s : List Cx × Nat) rad => (fftStage inv (2 ^ t) s.2 rad s.1, s.2 * rad)) (x, 1)).1

/-- Rows and columns exchanged, for `n` columns. -/
def transposed (n : Nat) (rows : List (List Cx)) : List (List Cx) :=
  (List.range n).map fun i => rows.map fun r => r.getD i (0, 0)

/-- A whole transform: along x, then along y. -/
def fftArray (op : Nat) (rows : List (List Cx)) : List (List Cx) :=
  let inv := op % 2 == 1
  let tx := op / 16 % 16
  let ty := if op / 2 % 2 = 1 then op / 256 % 16 else 0
  let rows := rows.map (fft1 inv tx)
  let rows := if ty = 0 then rows else transposed (2 ^ ty) ((transposed (2 ^ tx) rows).map (fft1 inv ty))
  if inv then
    let k := Int.ofNat (tx + ty)
    let sc (b : Nat) : Nat := f32z ((ofF32 b).shift (-k))
    rows.map fun r => r.map fun z => (sc z.1, sc z.2)
  else rows

/-- FFT: M arrays; every output of an array depends on all of it. -/
def fftTerrace (op : Nat) (a : Tensor) : Tensor × Note :=
  let lines := if op / 2 % 2 = 1 then 2 ^ (op / 256 % 16) else 1
  let rows := (groupsOf lines a.rows.length a.rows).flatMap fun g =>
    let p := g.any rowPoison
    (fftArray op (g.map fun r => r.map fun e : Elt => (e.complex a.fmt).1)).map fun r =>
      r.map fun z => (⟨Int.ofNat z.1, z.2, p⟩ : Elt)
  (⟨Fmt.CF32, rows⟩, ⟨a.rows.any (rowNan a.fmt), 0, 0, 0⟩)

/-! ### The estimator (R307) -/

/-- A pair of tokens is beyond the radius. -/
def beyondRadius (gw rad2 i j : Nat) : Bool :=
  let d (a b : Nat) : Int := Int.ofNat a - Int.ofNat b
  let dx := d (i % gw) (j % gw)
  let dy := d (i / gw) (j / gw)
  rad2 != 0xFFFFFFFF && decide (Int.ofNat rad2 < dx * dx + dy * dy)

/-- The estimated score of a query and a key. -/
def estimate (q k : List Elt) : Int :=
  256 * (List.zipWith (fun (x y : Elt) => (x.v / 16) * (y.v / 16)) q k).foldl (· + ·) 0

/-- ESTIMATE. `all` keeps every pair (EXACT mode, SKIP_OFF). -/
def estimateTerrace (all : Bool) (gw rad2 thr : Nat) (a b : Tensor) : Tensor × Note :=
  let rows := a.rows.zipIdx.map fun q => b.rows.zipIdx.map fun k =>
    let low := thr != 0x80000000 && decide (estimate q.1 k.1 < signedOf 32 thr)
    let gone := !all && (beyondRadius (max 1 gw) rad2 q.2 k.2 || low)
    (⟨if gone then 0 else 1, 0, rowPoison q.1 || rowPoison k.1⟩ : Elt)
  let chunks := max 1 (((a.rows.headD []).length + 63) / 64)
  let skipped := (rows.flatMap id).filter fun e : Elt => e.v == 0
  (⟨Fmt.MASK, markWaves (4096 / chunks) rows⟩, ⟨false, 0, skipped.length, 0⟩)

/-- The mask that an estimator's output is. -/
def maskOf (t : Tensor) : SkipMask :=
  { rows := t.rows.length, cols := (t.rows.headD []).length, kept := t.rows.flatMap fun r => r.map fun e : Elt => e.v != 0,
    marks := t.rows.flatMap fun r => r.map fun e : Elt => e.p }

/-! ### Post-processors of the Saddle (R345 to R347) -/

/-- Insert a candidate into a list of descending score; equal scores keep their order. -/
def insertScore (x : Nat × Nat) : List (Nat × Nat) → List (Nat × Nat)
  | [] => [x]
  | y :: ys => if FE.lt y.1 x.1 then x :: y :: ys else y :: insertScore x ys

/-- A list of R345: its entries (score, index), in a row with capacity `cap`. -/
def listRow (cap : Nat) (es : List (Nat × Nat)) (p : Bool) : List Elt :=
  let e (v : Nat) : Elt := ⟨signedOf 32 v, 0, p⟩
  e es.length :: e 0 :: (es.flatMap fun x => [e x.2, e x.1]) ++
    (List.replicate (cap - es.length) [e 0xFFFFFFFF, e 0xFF7FFFFF]).flatMap id

/-- TOPK. -/
def topkTerrace (ktop floor : Nat) (a : Tensor) : Tensor × Note :=
  let f := engineIn floor
  let rows := a.rows.map fun r =>
    let scored := r.zipIdx.map fun e => ((e.1.real a.fmt).1, e.2)
    let kept := scored.filter fun x => !FE.lt x.1 f.1
    listRow ktop ((kept.foldl (fun s x => insertScore x s) []).take ktop) (rowPoison r)
  (⟨Fmt.INT32, rows⟩, ⟨a.rows.any (rowNan a.fmt) || f.2, 0, 0, 0⟩)

/-- A box of R346: x0, y0, x1, y1. -/
abbrev Box := List Int

def Box.at (b : Box) (i : Nat) : Int := b.getD i 0
def Box.area (b : Box) : Int := max 0 (b.at 2 - b.at 0) * max 0 (b.at 3 - b.at 1)

/-- Box `j` suppresses box `i` at threshold `t`. -/
def Box.suppresses (t : Nat) (j i : Box) : Bool :=
  let inter := max 0 (min (i.at 2) (j.at 2) - max (i.at 0) (j.at 0)) * max 0 (min (i.at 3) (j.at 3) - max (i.at 1) (j.at 1))
  let union := i.area + j.area - inter
  i.area != 0 && j.area != 0 && decide (Int.ofNat t * union < 65536 * inter)

/-- The box of candidate `i`. -/
def boxOf (b : Tensor) (i : Nat) : Box × Bool :=
  match b.rows[i]? with
  | some r => (r.map fun e : Elt => e.v, rowPoison r)
  | none => ((List.range 4).map fun k => signedOf 32 (Config.noBox i k).toNat, false)

/-- NMS. -/
def nmsTerrace (t maxOut : Nat) (a b : Tensor) : Tensor × Note :=
  let rows := a.rows.map fun r =>
    let u (i : Nat) : Nat := patternOf 32 (r.getD i ⟨0, 0, false⟩).v
    let cap := r.length / 2 - 1
    let entries := (List.range (min cap (u 0))).map fun i => (u (2 * i + 3), u (2 * i + 2))
    let boxes := entries.map fun e => boxOf b e.2
    let kept := (entries.zip boxes).foldl (fun (ks : List ((Nat × Nat) × Box × Bool)) x =>
      if ks.length < maxOut ∧ (ks.any fun k => Box.suppresses t k.2.1 x.2.1) = false then ks ++ [x] else ks) []
    listRow maxOut (kept.map (·.1)) (rowPoison r || boxes.any (·.2))
  (⟨Fmt.INT32, rows⟩, Note.none)

/-- PIXARG. -/
def pixargTerrace (floor : Nat) (a : Tensor) : Tensor × Note :=
  let f := engineIn floor
  let rows := a.rows.map fun r =>
    let xs := r.map fun e : Elt => (e.real a.fmt).1
    let k := argMax xs
    [(⟨if FE.lt (xs.getD k 0) f.1 then -1 else signedOf 8 k, 0, rowPoison r⟩ : Elt)]
  (⟨Fmt.INT8, rows⟩, ⟨a.rows.any (rowNan a.fmt) || f.2, 0, 0, 0⟩)

end Sys2Proof.Machine
end

