-- ==== Sys2Proof/Machine/Fabric.lean ====
section
/-!
DEFINITION. Machine/Fabric.lean: the flits of R464 at their targets and at their requesters, the partial reset of R619,
and a stalled producer's retry (R476).
A request is served where it arrives and its reply then travels: a reply in `Fabric.net` has passed its egress point.
-/
namespace Sys2Proof.Machine

/-! ### Nodes and blocks -/

/-- Node of a lane: Vales 0 to 5, the Saddle, Movers 0 and 1 (R461). -/
def laneNode : Nat → Nat
  | 0 => 1 | 1 => 2 | 2 => 3 | 3 => 12 | 4 => 13 | 5 => 16 | 6 => 7 | 7 => 8 | _ => 11

/-- Nodes that carry Basins, six each (R461). -/
def basinNodes : List Nat := [0, 1, 2, 3, 5, 6, 7, 8, 10, 11, 12, 13, 15, 16, 17, 18]

/-- Node of a memory's byte: a Basin's, a pool's, a Plain port's by the line's sub-channel, or that of the Glance shadow (R461). -/
def memNode (mem off : Nat) : Nat :=
  if mem = 0 then basinNodes.getD (off / 0x80000 / 6) 0
  else if mem = 1 then laneNode 6
  else if mem ≤ 7 then laneNode (mem - 2)
  else if mem = 8 then [4, 9, 14, 19].getD (off / 64 % 8 / 2) 4
  else 0

/-- Lane whose block issues requests from a node. -/
def nodeLane (node : Nat) : Option Nat := (List.range 9).find? fun l => laneNode l = node

/-- Vale `n` is fenced (R617). -/
def Chip.fenced (c : Chip) (n : Nat) : Bool := c.bit (F.VALE_STATUS.FENCED.vale n)

/-- The block of a lane is in partial reset (R618, R624). -/
def Chip.laneDown (c : Chip) (lane : Nat) : Bool := c.fabric.down.contains lane

/-- The requester at a node is in partial reset. -/
def Chip.nodeDown (c : Chip) (node : Nat) : Bool := (nodeLane node).any c.laneDown

/-- The memory belongs to a block in partial reset: the pool of a fenced Vale. -/
def Chip.memDown (c : Chip) (mem : Nat) : Bool := decide (2 ≤ mem) && decide (mem ≤ 7) && c.laneDown (mem - 2)

/-! ### What a partial reset counts (R619, R626) -/

/-- Count towards the RECOVERY record of the event whose recovery point is still to come. -/
def Chip.recoverCount (c : Chip) (f : Recovery → Recovery) : Chip :=
  { c with egress := { c.egress with recovery :=
      match c.egress.recovery.getLast? with
      | some r => if r.point.isNone then c.egress.recovery.dropLast ++ [f r] else c.egress.recovery
      | none => [] } }

/-- A RESET_ABORT reply is sent. -/
def Chip.countAbort (c : Chip) : Chip :=
  ((c.count F.FLT_PART.ABORTS 1).raise F.PASS_EVENTS.RESET_ABORT).recoverCount fun r => { r with aborts := r.aborts + 1 }

/-- A reply is discarded at the reset block's port; a popped element is lost with it. -/
def Chip.countDiscard (c : Chip) (popped : Bool) : Chip :=
  let c := c.recoverCount fun r => { r with discarded := r.discarded + 1 }
  if popped then (c.count F.FLT_PART.LOST 1).recoverCount fun r => { r with lost := r.lost + 1 } else c

/-! ### Requests -/

/-- Put a reply on its way. -/
def Chip.reply (c : Chip) (r : Reply) : Chip := { c with fabric := { c.fabric with net := c.fabric.net ++ [r] } }

/-- A reply to a request of `n` bytes at an offset of a memory (R463, R464). -/
def memReply (kind : ReplyKind) (node vc tag mem off n : Nat) (bs : List MByte) : Reply :=
  { kind := kind, src := memNode mem off, dst := node, vc := vc, tag := tag, mem := mem, addr := off, bytes := n, data := bs,
    popped := false }

/-- A reply of the queue manager, which stands at node 0 (R461, R464). -/
def queueReply (node vc tag st : Nat) (el : List MByte) (popped : Bool) : Reply :=
  { kind := .qReply, src := 0, dst := node, vc := vc, tag := tag, mem := 0xF, addr := st, bytes := el.length, data := el,
    popped := popped }

/-- The answer to a request for a block in partial reset (R464, R619). -/
def Chip.replyAbort (c : Chip) (node vc tag mem off n : Nat) : Chip :=
  c.countAbort.reply (memReply .resetAbort node vc tag mem off n (List.replicate 64 MByte.aborted))

/-- RD_REQ: a read request reaches a memory and is served. -/
def Chip.rdReq (c : Chip) (node vc tag mem off n : Nat) (us : List Upset) : Chip :=
  let c := (c.upset us).countFlits vc 2
  if c.memDown mem then c.replyAbort node vc tag mem off n
  else
    let (bs, c) := c.memRead .engine mem off n
    c.reply (memReply .rdData node vc tag mem off n bs)

/-- RD_REQ. -/
def execRdReq (node vc tag mem off n : Nat) (us : List Upset) (s : State) : Host.Outcome State Fault Refusal :=
  act (.rdReq node vc tag mem off n us) (fun _ c => c.rdReq node vc tag mem off n us) s

/-- WR_REQ: a write request reaches a memory and is stored. -/
def Chip.wrReq (c : Chip) (node vc tag mem off : Nat) (bs : List MByte) : Chip :=
  let c := c.countFlits vc 2
  if c.memDown mem then c.replyAbort node vc tag mem off bs.length
  else (c.memWrite mem off bs).reply (memReply .wrAck node vc tag mem off bs.length [])

/-- WR_REQ. -/
def execWrReq (node vc tag mem off : Nat) (bs : List MByte) (s : State) : Host.Outcome State Fault Refusal :=
  act (.wrReq node vc tag mem off bs) (fun _ c => c.wrReq node vc tag mem off bs) s

/-- Q_PUSH: the queue manager performs a push and returns its status; a producer that may wait keeps a refused one. -/
def Chip.qPushFlit (c : Chip) (node vc tag q : Nat) (el : List MByte) : Chip :=
  let c := c.countFlits vc 2
  let lane := nodeLane node
  let stalls := (QDesc.full (c.mem.descriptor q) == 2) && lane.isSome
  let (st, c) := c.qPush q el lane.isSome
  let c := match lane with
    | some l =>
      if st = 1 ∧ stalls = true then
        { c with fabric := { c.fabric with stalled := c.fabric.stalled ++ [StalledPush.mk l node q el (some (vc, tag))] } }
      else c
    | none => c
  c.reply (queueReply node vc tag st [] false)

/-- Q_PUSH. -/
def execQPush (node vc tag q : Nat) (el : List MByte) (s : State) : Host.Outcome State Fault Refusal :=
  act (.qPush node vc tag q el) (fun _ c => c.qPushFlit node vc tag q el) s

/-- Q_POP: the queue manager performs a pop and returns an element or a status. -/
def Chip.qPopFlit (c : Chip) (node vc tag q : Nat) : Chip :=
  let (st, el, c) := (c.countFlits vc 2).qPop node q
  c.reply (queueReply node vc tag st el (decide (st = 0)))

/-- Q_POP. -/
def execQPop (node vc tag q : Nat) (s : State) : Host.Outcome State Fault Refusal :=
  act (.qPop node vc tag q) (fun _ c => c.qPopFlit node vc tag q) s

/-! ### Replies -/

/-- The first reply on its way that meets a condition, and the rest. -/
def firstReply (p : Reply → Bool) : List Reply → Option (Reply × List Reply)
  | [] => none
  | r :: rs =>
    if p r then some (r, rs)
    else match firstReply p rs with
      | some (x, ys) => some (x, r :: ys)
      | none => none

/-- A reply travels this way. -/
def routeCarries (w : Route) (r : Reply) : Bool := r.src == w.src && r.dst == w.dst && r.vc == w.vc

/-- A reply of a kind reaches its requester (R464), at a block in partial reset to be discarded (R619): the oldest of its way, which
nothing overtakes (R470). -/
def Chip.deliver (c : Chip) (kind : ReplyKind) (w : Route) : Chip :=
  match firstReply (routeCarries w) c.fabric.net with
  | none => c
  | some (r, rest) =>
    if r.kind ≠ kind then c
    else
      let c := { c with fabric := { c.fabric with net := rest } }
      if c.nodeDown w.dst then c.countDiscard r.popped
      else { c with fabric := { c.fabric with arrived := (c.fabric.arrived.filter fun e => e.1 != w.dst) ++ [(w.dst, r)] } }

/-- RD_DATA. -/
def execRdData (route : Route) (s : State) : Host.Outcome State Fault Refusal :=
  act (.rdData route) (fun _ c => c.deliver .rdData route) s

/-- WR_ACK. -/
def execWrAck (route : Route) (s : State) : Host.Outcome State Fault Refusal :=
  act (.wrAck route) (fun _ c => c.deliver .wrAck route) s

/-- Q_REPLY. -/
def execQReply (route : Route) (s : State) : Host.Outcome State Fault Refusal :=
  act (.qReply route) (fun _ c => c.deliver .qReply route) s

/-- RESET_ABORT. -/
def execResetAbort (route : Route) (s : State) : Host.Outcome State Fault Refusal :=
  act (.resetAbort route) (fun _ c => c.deliver .resetAbort route) s

/-! ### A stalled push -/

/-- Take out the oldest stalled push of a lane. -/
def takeStalled (lane : Nat) : List StalledPush → Option (StalledPush × List StalledPush)
  | [] => none
  | p :: ps =>
    if p.lane = lane then some (p, ps)
    else match takeStalled lane ps with
      | some (x, ys) => some (x, p :: ys)
      | none => none

/-- The producer sends its oldest refused push again, and the queue manager answers it (R464, R476). -/
def Chip.pushRetry (c : Chip) (lane : Nat) : Chip :=
  match takeStalled lane c.fabric.stalled with
  | none => c
  | some (p, rest) =>
    let (st, c) := c.qPush p.queue p.data true
    let c := if st = 1 then c else { c with fabric := { c.fabric with stalled := rest } }
    match p.flit with
    | some (vc, tag) => (c.countFlits vc 2).reply (queueReply p.src vc tag st [] false)
    | none => c

/-- PUSH_RETRY. -/
def execPushRetry (lane : Nat) (s : State) : Host.Outcome State Fault Refusal :=
  act (.pushRetry lane) (fun _ c => c.pushRetry lane) s

/-! ### Partial reset of a block -/

/-- PASS_STATUS follows the blocks in partial reset (R490). -/
def Chip.showRunning (c : Chip) : Chip :=
  c.set F.PASS_STATUS.RUNNING ((List.range 9).foldl (fun m l =>
    if c.laneDown l then Nat.xor m (2 ^ laneNode l) else m) 0xFFFFF)

/-- The partial reset of a lane's block at its node (R619, R620): its queues freeze. The queues frozen. -/
def Chip.partReset (c : Chip) (lane : Nat) : List Nat × Chip :=
  let down := if c.laneDown lane then c.fabric.down else c.fabric.down ++ [lane]
  let stalled := c.fabric.stalled.filter fun p => p.lane != lane
  let c := { c with fabric := { c.fabric with down := down, stalled := stalled } }
  let (fs, c) := c.qFreezeOwned (laneNode lane)
  let c := (c.count F.FLT_PART.FROZEN fs.length).recoverCount fun r => { r with frozen := r.frozen + fs.length }
  (fs, c.showRunning)

end Sys2Proof.Machine
end

