-- ==== Sys2Proof/Machine/Passes.lean ====
section
/-!
DEFINITION. Machine/Passes.lean: unit bodies of the Saddle and the Vales (R315, R316, R327), the ports, the window gatherer
(R328, R329), the group-table walker (R317, R359), iteration counts (R372, R373), and PASS_START. An engine's pass reads and
writes when it ends: at the next PASS_START or at UNIT_END; a stop lets part of it commit (log entry 22).
-/
namespace Sys2Proof.Machine

/-! ### Lanes -/

/-- Schedule code of a lane (R94), and the lane of a code. Lanes are 0 to 5 the Vales, 6 the Saddle, 7 and 8 the Movers. -/
def laneCode (lane : Nat) : Nat := if lane = 6 then 0 else if lane < 6 then lane + 1 else lane
def laneOfCode (code : Nat) : Nat := if code = 0 then 6 else if code ≤ 6 then code - 1 else code

/-- Memory code of a lane's own pool. -/
def poolOf (lane : Nat) : Nat := if lane = 6 then 1 else lane + 2

/-- The unit in progress on a lane. -/
def Chip.laneRun (c : Chip) (lane : Nat) : Option UnitRun :=
  (c.sched.lanes.find? fun e : Nat × UnitRun => e.1 == lane).map (·.2)

/-- Change the unit in progress on a lane. -/
def Chip.setRun (c : Chip) (lane : Nat) (u : UnitRun) : Chip :=
  { c with sched := { c.sched with
      lanes := c.sched.lanes.map fun e : Nat × UnitRun => if e.1 = lane then (lane, u) else e } }

/-- Frame that a unit serves (R95). In the drain tick TICK_FRAME keeps the last frame's number, and the spill entries serve that
frame (R146). -/
def Chip.runFrame (c : Chip) (ofs : Nat) : Nat :=
  (c.fld F.TICK_FRAME.FRAME + 0x100000000 - (if c.sched.drain then 0 else ofs)) % 0x100000000

/-- Mark the records that a network derives in a frame (R552): 1 INCOMPLETE, 2 UNSERVED, 4 APPROX, 8 DROPPED, 16 POISONED. -/
def Chip.markNetwork (c : Chip) (frame net bit : Nat) : Chip :=
  c.metaUpd frame fun m =>
    let old := Sparse.get (fun _ => 0) m.marks net
    { m with marks := Sparse.set (fun _ => 0) m.marks net (old ||| bit) }

/-! ### Bodies -/

/-- A terrace descriptor (R315). -/
structure TDesc where
  kind : Nat
  a : Nat
  b : Nat
  fmt : Nat
  op : Nat
  rsv : Nat
  p0 : Nat
  p1 : Nat
  deriving DecidableEq, Repr

/-- One port of a pass program (R316). -/
structure PortDef where
  addr : Nat
  rowBytes : Nat
  rows : Nat
  strideRow : Nat
  strideIter : Nat
  deriving DecidableEq, Repr

/-- A pass program (R316). -/
structure Prog where
  enable : Nat
  rsv : Nat
  m : Nat
  n : Nat
  k : Nat
  ports : List PortDef
  deriving DecidableEq, Repr

/-- An engine body (R315). -/
structure Body where
  count : Nat
  grid : Nat
  constOfs : Nat
  constSize : Nat
  rsv : Nat
  terraces : List TDesc
  progs : List Prog
  consts : List Byte
  deriving DecidableEq, Repr

def TDesc.ofBytes (b : List Byte) : TDesc :=
  { kind := leAt b 0 1, a := leAt b 1 1, b := leAt b 2 1, fmt := leAt b 3 1, op := leAt b 4 2, rsv := leAt b 6 2,
    p0 := leAt b 8 4, p1 := leAt b 12 4 }

def Prog.ofBytes (b : List Byte) : Prog :=
  { enable := leAt b 0 1, rsv := leAt b 1 3, m := leAt b 4 4, n := leAt b 8 4, k := leAt b 12 4,
    ports := (List.range 4).map fun i =>
      let o := 16 + 20 * i
      { addr := leAt b o 4, rowBytes := leAt b (o + 4) 4, rows := leAt b (o + 8) 4, strideRow := leAt b (o + 12) 4,
        strideIter := leAt b (o + 16) 4 } }

/-- The body of a unit with `passes` pass records. -/
def Body.ofBytes (passes : Nat) (b : List Byte) : Body :=
  let t := leAt b 0 2
  { count := t, grid := leAt b 2 2, constOfs := leAt b 4 4, constSize := leAt b 8 4, rsv := leAt b 12 4,
    terraces := recordsOf 16 (sliceOf b 16 (16 * min 8 t)) |>.map TDesc.ofBytes,
    progs := recordsOf 96 (sliceOf b (16 + 16 * t) (96 * passes)) |>.map Prog.ofBytes,
    consts := sliceOf b (leAt b 4 4) (leAt b 8 4) }

/-- Kinds of R310 and R327. -/
abbrev Kd.READ : Nat := 1
abbrev Kd.WALK : Nat := 2
abbrev Kd.ARRAY : Nat := 3
abbrev Kd.FFT : Nat := 4
abbrev Kd.ESTIMATE : Nat := 5
abbrev Kd.VECTOR : Nat := 6
abbrev Kd.REQUANT : Nat := 7
abbrev Kd.WRITE : Nat := 8
abbrev Kd.WINDOW : Nat := 9
abbrev Kd.TOPK : Nat := 10
abbrev Kd.NMS : Nat := 11
abbrev Kd.PIXARG : Nat := 12

/-- Kinds that use a port. -/
def TDesc.ported (t : TDesc) : Bool := t.kind == Kd.READ || t.kind == Kd.WRITE || t.kind == Kd.WINDOW

/-- Port of terrace `i`: its rank among the terraces with ports (R316). -/
def Body.portOf (b : Body) (i : Nat) : Nat := ((b.terraces.take i).filter TDesc.ported).length

/-- Terrace `i` runs in a pass. -/
def Prog.runs (g : Prog) (i : Nat) : Bool := g.enable.testBit i

/-- No terrace, and terrace `i`; one of no kind where none is declared. -/
abbrev TDesc.absent : TDesc := ⟨0, 0, 0, 0, 0, 0, 0, 0⟩
def Body.t (b : Body) (i : Nat) : TDesc := b.terraces.getD i TDesc.absent

/-- Terrace `i` takes data from terrace `s`. -/
def TDesc.uses (t : TDesc) (s : Nat) : Bool :=
  t.kind != Kd.READ && t.kind != Kd.WALK && t.kind != Kd.WINDOW && (t.a == s || t.b == s)

/-- Terraces that take data from terrace `s`. -/
def Body.users (b : Body) (s : Nat) : List (TDesc × Nat) := b.terraces.zipIdx.filter fun x => x.1.uses s

/-- A pass program has an enabled terrace of a kind, and the OP of it. -/
def Body.on (b : Body) (g : Prog) (kind : Nat) : Bool := b.terraces.zipIdx.any fun x => x.1.kind == kind && g.runs x.2
def Body.opOf (b : Body) (g : Prog) (kind : Nat) : Nat :=
  ((b.terraces.zipIdx.find? fun x => x.1.kind == kind && g.runs x.2).map fun x : TDesc × Nat => x.1.op).getD 0

/-- Memory code that a port terrace of a lane names; WINDOW reads what its OP says. -/
def TDesc.mem (t : TDesc) (lane : Nat) : Nat := if t.op = 0 then poolOf lane else if t.op = 1 then 0 else 8

/-! ### The window gatherer (R328, R329) -/

/-- A window descriptor. -/
structure Win where
  layout : Nat
  fmt : Nat
  kh : Nat
  kw : Nat
  stride : Nat
  dil : Nat
  pad : Nat
  src : Nat
  ch : Nat
  first : Nat
  zp : Int
  rsv : Nat
  wo : Nat
  ho : Nat
  ox0 : Int
  oy0 : Int
  w : Nat
  h : Nat
  scale : Nat
  padv : Nat
  deriving DecidableEq, Repr

def Win.ofBytes (b : List Byte) : Win :=
  { layout := leAt b 0 1, fmt := leAt b 1 1, kh := leAt b 2 1, kw := leAt b 3 1, stride := leAt b 4 1, dil := leAt b 5 1,
    pad := leAt b 6 1, src := leAt b 7 1, ch := leAt b 8 1, first := leAt b 9 1, zp := sleAt b 10 1, rsv := leAt b 11 1,
    wo := leAt b 12 2, ho := leAt b 14 2, ox0 := sleAt b 16 2, oy0 := sleAt b 18 2, w := leAt b 20 2, h := leAt b 22 2,
    scale := leAt b 24 4, padv := leAt b 28 4 }

/-- Reduction length of a window. -/
def Win.k (v : Win) : Nat := v.kh * v.kw * v.ch

/-- Offset of input element (channel, x, y), through the port, or by R285 with the parameters of the named output. -/
def Win.addr (v : Win) (port : PortDef) (out : Option FrontOut) (ch x y : Nat) : Nat :=
  if v.layout = 0 then port.addr + y * port.rowBytes + x * port.strideRow + ch * (fmtBits v.fmt / 8)
  else match out with
    | some o => o.offset ch x y
    | none => port.addr

/-- Offset that element `r` of the row of output position `p` reads; none for a padded tap (R329). -/
def Win.tap (v : Win) (port : PortDef) (out : Option FrontOut) (p r : Nat) : Option Nat :=
  let ch := v.first + r % v.ch
  let dx := r / v.ch % v.kw
  let dy := r / v.ch / v.kw
  let ix := v.ox0 + Int.ofNat (p % v.wo * v.stride + dx * v.dil)
  let iy := v.oy0 + Int.ofNat (p / v.wo * v.stride + dy * v.dil)
  let inside := decide (0 ≤ ix) && decide (ix < Int.ofNat v.w) && decide (0 ≤ iy) && decide (iy < Int.ofNat v.h)
  if inside || v.pad == 1 then
    some (v.addr port out ch (clampInt 0 (Int.ofNat v.w - 1) ix).toNat (clampInt 0 (Int.ofNat v.h - 1) iy).toNat)
  else none

/-- A gathered element for an array mode: FMT_OUT INT8 or FP16; whether it was a NaN. -/
def Win.convert (v : Win) (out : Nat) (e : Option Elt) : Elt × Bool :=
  match e with
  | some x =>
    if out = Fmt.INT8 ∧ v.fmt = Fmt.INT8 then (x, false)
    else
      let r := x.real v.fmt
      if out = Fmt.INT8 then
        let y := (ofF32 (FE.mul r.1 (engineIn v.scale).1)).toInt + v.zp
        (⟨clampInt (-128) 127 y, 0, x.p⟩, r.2)
      else (Elt.ofReal Fmt.FP16 r.1 x.p, r.2)
  | none =>
    let r := engineIn v.padv
    if out = Fmt.INT8 then
      if v.fmt = Fmt.INT8 then (Elt.ofReal Fmt.INT8 r.1 false, r.2)
      else
        let y := (ofF32 (FE.mul r.1 (engineIn v.scale).1)).toInt + v.zp
        (⟨clampInt (-128) 127 y, 0, false⟩, r.2)
    else (Elt.ofReal Fmt.FP16 r.1 false, r.2)

/-- Read the elements that taps name. -/
def Chip.readTaps (mem fmt : Nat) : List (Option Nat) → Chip → List (Option Elt) × Chip
  | [], c => ([], c)
  | none :: ts, c =>
    let (es, c) := Chip.readTaps mem fmt ts c
    (none :: es, c)
  | some a :: ts, c =>
    let (bs, c) := c.memRead .engine mem a (fmtBits fmt / 8)
    let (es, c) := Chip.readTaps mem fmt ts c
    (some (Elt.ofBytes fmt bs) :: es, c)

/-! ### A unit's work -/

/-- What a unit's passes have in common. -/
structure Work where
  lane : Nat
  frame : Nat
  body : Body
  /-- Plain regions it may use: base, size, access of the reference (R166). -/
  regions : List (Nat × Nat × Nat)
  /-- No pair is skipped (R393). -/
  keepAll : Bool
  /-- Front outputs of its image. -/
  outs : List FrontOut
  /-- Bytes that each port's writes are cut to by a stop; none when the iteration completes. -/
  limits : Option (List Nat)
  /-- The WRITE terrace that a wave in replay feeds at the stop: its last byte is not committed (R380). -/
  replaying : Option Nat
  deriving Repr

/-- Regions that a unit references. -/
def Image.unitRegions (im : Image) (r : UnitRec) : List (Nat × Nat × Nat) :=
  r.regions.filterMap fun e =>
    match im.regions.find? fun g => g.id == e.1 with
    | some g => some (g.base, g.size, e.2.1)
    | none => none

/-- The tensors' dimensions and port places of one iteration: those of the pass program, or of a group entry. -/
structure Dims where
  walk : Bool
  m : Nat
  n : Nat
  k : Nat
  /-- Start and row stride of each port. -/
  places : List (Nat × Nat)
  deriving DecidableEq, Repr

/-- The dimensions of iteration `i` of a pass without a walker. -/
def Prog.dims (g : Prog) (i : Nat) : Dims :=
  { walk := false, m := g.m, n := g.n, k := g.k, places := g.ports.map fun p => (p.addr + i * p.strideIter, p.strideRow) }

/-- The dimensions that a group entry gives iteration `i` (R317, R359). -/
def Prog.walked (g : Prog) (i : Nat) (e : List Byte) : Dims :=
  let from3 := (g.ports.drop 3).map fun p => (p.addr + i * p.strideIter, p.strideRow)
  { walk := true, m := leAt e 0 4, n := leAt e 4 4, k := leAt e 8 4,
    places := [(leAt e 12 4, leAt e 16 4), (leAt e 20 4, leAt e 24 4), (leAt e 28 4, leAt e 32 4)] ++ from3 }

/-- Rows and row length of the tensors that element-wise work has in a pass (R316). -/
def Body.base (b : Body) (g : Prog) (d : Dims) : Nat × Nat :=
  if b.on g Kd.FFT then
    let op := b.opOf g Kd.FFT
    (d.m * (if op / 2 % 2 = 1 then 2 ^ (op / 256 % 16) else 1), 2 ^ (op / 16 % 16))
  else (d.m, d.n)

/-- Rows and row length of the output of terrace `i` (R316, R329, R345 to R347); `fuel` is above the number of terraces. -/
def Body.shape (b : Body) (g : Prog) (d : Dims) : Nat → Nat → Nat × Nat
  | 0, _ => (0, 0)
  | fuel + 1, i =>
    let t := b.t i
    match t.kind with
    | 4 => b.base g d
    | 6 => if vectorReduces t.op then ((b.shape g d fuel t.a).1, 1) else b.shape g d fuel t.a
    | 7 => b.shape g d fuel t.a
    | 8 => b.shape g d fuel t.a
    | 9 => (d.m, d.k)
    | 10 => (d.m, 2 * (t.p0 + 1))
    | 11 => (d.m, 2 * (t.p1 + 1))
    | 12 => (d.m, 1)
    | 1 => b.base g d
    | _ => (d.m, d.n)

/-- Rows and row length that terrace `x` takes from READ terrace `i`; a list or a box row is as its port says (R346). -/
def Body.takes (b : Body) (g : Prog) (d : Dims) (x : TDesc) (i : Nat) : Nat × Nat :=
  let p := g.ports.getD (b.portOf i) ⟨0, 0, 0, 0, 0⟩
  match x.kind with
  | 3 | 5 => if x.a = i then (d.m, d.k) else (d.n, d.k)
  | 11 => (p.rows, p.rowBytes / 4)
  | 6 => b.shape g d 9 x.a
  | _ => b.base g d

/-- Rows and row length that READ terrace `i` reads: what its users in the pass take. -/
def Body.reads (b : Body) (g : Prog) (d : Dims) (i : Nat) : Nat × Nat :=
  (b.users i).foldl (fun (s : Nat × Nat) x =>
    if g.runs x.2 then
      let t := b.takes g d x.1 i
      (max s.1 t.1, max s.2 t.2)
    else s) (0, 0)

/-- Read rows of a tensor. -/
def Chip.readRows (mem fmt n stride : Nat) : Nat → Nat → Chip → List (List Elt) × Chip
  | 0, _, c => ([], c)
  | rows + 1, addr, c =>
    let (bs, c) := c.memRead .engine mem addr (rowSize fmt n)
    let (rs, c) := Chip.readRows mem fmt n stride rows (addr + stride) c
    (rowElts fmt n bs :: rs, c)

/-- Bytes of a write that a stop lets commit: all of them, or at most `limit`; of the Plain whole lines only (R411). -/
def cutTo (mem : Nat) (limit : Option Nat) (bs : List MByte) : List MByte :=
  match limit with
  | none => bs
  | some n => bs.take (if mem = 8 then n / 64 * 64 else n)

/-- Write rows of a tensor, up to a limit in bytes. -/
def Chip.writeRows (mem fmt frame stride : Nat) : Option Nat → List (List Elt) → Nat → Chip → Chip
  | _, [], _, c => c
  | limit, r :: rs, addr, c =>
    let bs := rowBytes fmt (Config.oddNibble frame addr).toNat r
    let c := c.memWrite mem addr (cutTo mem limit bs)
    Chip.writeRows mem fmt frame stride (limit.map fun n => n - bs.length) rs (addr + stride) c

/-- What flows through the terraces of one iteration: outputs so far, events, the mask made, the chip. -/
structure Flow where
  outs : List Tensor
  note : Note
  mask : Option SkipMask
  chip : Chip

/-- What terrace `x` takes from source `i`. -/
def Flow.src (f : Flow) (b : Body) (g : Prog) (d : Dims) (x : TDesc) (i : Nat) : Tensor :=
  let t := f.outs.getD i Tensor.none
  if (b.t i).kind = Kd.READ then t.cut (b.takes g d x i).2 else t

/-- The flow after one more terrace. -/
def Flow.push (f : Flow) (r : Tensor × Note) : Flow := { f with outs := f.outs ++ [r.1], note := f.note.add r.2 }

/-- WINDOW: the activation rows of iteration `i`. -/
def Flow.window (f : Flow) (w : Work) (g : Prog) (t : TDesc) (j i : Nat) : Flow :=
  let v := Win.ofBytes (sliceOf w.body.consts t.p1 32)
  let port := g.ports.getD j ⟨0, 0, 0, 0, 0⟩
  let out := if v.layout = 0 then none else w.outs[v.src]?
  let mem := if v.layout = 0 then t.mem w.lane else 0
  let taps := (List.range g.m).flatMap fun m => (List.range v.k).map fun r => v.tap port out (i * g.m + m) r
  let (es, c) := Chip.readTaps mem v.fmt taps f.chip
  let conv : List (Elt × Bool) := es.map (v.convert t.fmt)
  let scaleNan := v.fmt != Fmt.INT8 && t.fmt == Fmt.INT8 && (engineIn v.scale).2
  ({ f with chip := c }).push
    (⟨t.fmt, groupsOf v.k g.m (conv.map fun x : Elt × Bool => x.1)⟩, ⟨(conv.any fun x : Elt × Bool => x.2) || scaleNan, 0, 0, 0⟩)

/-- One terrace of one iteration. -/
def Work.terrace (w : Work) (g : Prog) (d : Dims) (i : Nat) (mask : Option SkipMask) (f : Flow) (x : TDesc × Nat) : Flow :=
  let t := x.1
  let ws := widthsOf w.lane
  let j := w.body.portOf x.2
  let place := d.places.getD j (0, 0)
  let src := f.src w.body g d t
  if g.runs x.2 = false then f.push (Tensor.none, Note.none)
  else match t.kind with
    | 1 =>
      let s := w.body.reads g d x.2
      let (rows, c) := Chip.readRows (t.mem w.lane) t.fmt s.2 place.2 s.1 place.1 f.chip
      ({ f with chip := c }).push (⟨t.fmt, rows⟩, Note.none)
    | 3 => f.push (arrayTerrace ws t.op mask (src t.a) (src t.b))
    | 4 => f.push (fftTerrace t.op (src t.a))
    | 5 =>
      let r := estimateTerrace w.keepAll w.body.grid t.p0 t.p1 (src t.a) (src t.b)
      ({ f with mask := some (maskOf r.1) }).push r
    | 6 => f.push (vectorTerrace ws t.op t.fmt t.p0 t.p1 w.body.consts (src t.a)
        (if t.b = 0xFF then none else some (src t.b)))
    | 7 => f.push (requantTerrace ws t.op t.p1 w.body.consts (src t.a))
    | 8 =>
      let a := src t.a
      let size := (a.rows.map fun r => rowSize a.fmt r.length).foldl (· + ·) 0
      let limit := w.limits.map fun l => if w.replaying = some x.2 then min (l.getD j 0) (size - 1) else l.getD j 0
      let c := Chip.writeRows (t.mem w.lane) a.fmt w.frame place.2 limit a.rows place.1 f.chip
      ({ f with chip := c }).push (Tensor.none, Note.none)
    | 9 => f.window w g t j i
    | 10 => f.push (topkTerrace (t.p0 % 512) t.p1 (src t.a))
    | 11 => f.push (nmsTerrace t.p0 t.p1 (src t.a) (src t.b))
    | 12 => f.push (pixargTerrace t.p0 (src t.a))
    | _ => f.push (Tensor.none, Note.none)

/-- All terraces of one iteration, in ascending index. -/
def Work.iterate (w : Work) (g : Prog) (d : Dims) (i : Nat) (mask : Option SkipMask) (c : Chip) : Flow :=
  w.body.terraces.zipIdx.foldl (w.terrace g d i mask) { outs := [], note := Note.none, mask := none, chip := c }

/-! ### The walker (R317) -/

/-- Bytes `lo` to `lo + n − 1` lie where R319 lets a port of this unit lie. -/
def Work.inRange (w : Work) (op access lo n : Nat) : Bool :=
  if n = 0 then true
  else if op = 0 then decide (lo + n ≤ memSize (poolOf w.lane))
  else if op = 1 then decide (0x200000 ≤ lo) && decide (lo + n ≤ 0x3000000)
  else w.regions.any fun r => r.2.2.testBit access && decide (r.1 ≤ lo) && decide (lo + n ≤ r.1 + r.2.1)

/-- Bytes that `rows` rows of `size` bytes take. -/
def spanOf (rows size stride : Nat) : Nat := if rows = 0 ∨ size = 0 then 0 else (rows - 1) * stride + size

/-- A group entry's tensors lie in range, and its dimensions within the pass program's. -/
def Work.entryOk (w : Work) (g : Prog) (d : Dims) : Bool :=
  decide (d.m ≤ g.m) && decide (d.n ≤ g.n) && decide (d.k ≤ g.k) &&
  (w.body.terraces.zipIdx.all fun x =>
    let j := w.body.portOf x.2
    let place := d.places.getD j (0, 0)
    if !(x.1.ported && g.runs x.2 && decide (j ≤ 2)) then true
    else
      let write := x.1.kind == Kd.WRITE
      let s := if write then w.body.shape g d 9 x.2 else w.body.reads g d x.2
      let size := rowSize x.1.fmt s.2
      w.inRange x.1.op write.toNat place.1 (spanOf s.1 size place.2) &&
        (!write || x.1.op != 2 || (place.1 % 64 == 0 && place.2 % 64 == 0 && size % 64 == 0)))

/-- Group-table offset of a pass's WALK terrace, if one is enabled. -/
def Work.walker (w : Work) (g : Prog) : Option Nat :=
  (w.body.terraces.zipIdx.find? fun x => x.1.kind == Kd.WALK && g.runs x.2).map fun x : TDesc × Nat => x.1.p0

/-! ### Iteration counts (R372, R373) -/

/-- One loop entry. -/
structure LoopEntry where
  lane : Nat
  pass : Nat
  unitId : Nat
  src : Nat
  rsv : Nat
  index : Nat
  deriving DecidableEq, Repr

/-- The loop entries of an image's EXPERTS section. -/
def Image.loops (im : Image) : List LoopEntry :=
  let b := im.body Ty.EXPERTS 0
  (recordsOf 8 (sliceOf b (leAt b 12 4) (8 * leAt b 4 2))).map fun r =>
    { lane := leAt r 0 1, pass := leAt r 1 1, unitId := leAt r 2 2, src := leAt r 4 1, rsv := leAt r 5 1,
      index := leAt r 6 2 }

/-- A pass found its queue empty (R373). -/
def Chip.loopEmpty (c : Chip) : Chip :=
  ((c.raise F.RT_EVENTS.LOOP_EMPTY).count F.LOOPCOUNT_STATUS.EMPTIES 1).alertOnce Code.LOOP_EMPTY noUnit 0

/-- A pass's count exceeds ITER_MAX (R373). -/
def Chip.loopClamp (c : Chip) : Chip :=
  ((c.raise F.RT_EVENTS.LOOP_CLAMP).count F.LOOPCOUNT_STATUS.CLAMPS 1).alertOnce Code.LOOP_CLAMP noUnit 0

/-- What a count source gives: a count, nothing, or a poisoned word. -/
inductive CountWord where
  | value (n : Nat) | empty | poisoned
  deriving DecidableEq, Repr

/-- Take the count of a loop entry. -/
def Chip.takeCount (c : Chip) (lane : Nat) (l : LoopEntry) : CountWord × Chip :=
  if l.src = 2 then (.value (c.live (F.LOOP_COUNT.COUNT.el l.index)), c)
  else
    let (st, el, c) := c.qPop (laneNode lane) l.index
    if st = 0 ∨ st = 8 then
      (if poisonedEl (el.take 4) then .poisoned else .value (leAt (bytesOf el) 0 4), c)
    else (.empty, c)

/-- Iterations that the pass at the front of a unit takes; the unit with what that marks. -/
def Chip.passCount (c : Chip) (lane : Nat) (u : UnitRun) (p : PassRec) : Nat × UnitRun × Chip :=
  if p.iterSrc = 0 then (p.iterMax, u, c)
  else
    match (c.wiring u.old).loops.find? fun l => l.lane == laneCode lane && l.pass == u.pass && l.unitId == u.unit with
    | none => (p.iterMax, u, c)
    | some l =>
      match c.takeCount lane l with
      | (.value n, c) =>
        if p.iterMax < n then (p.iterMax, { u with tainted := true }, c.loopClamp) else (n, u, c)
      | (.empty, c) => (0, { u with tainted := true }, c.loopEmpty)
      | (.poisoned, c) => (0, { u with poisoned := true }, c)

/-! ### Passes of the engines -/

/-- A NaN input: the event, and a fault at the first of a unit (R294, R348). -/
def Chip.nanIn (c : Chip) (lane : Nat) (u : UnitRun) : UnitRun × Chip :=
  let c := if lane = 6 then c.raise F.SAD_EVENTS.NAN_IN else c.raise (F.VALE_EVENTS.NAN_IN.vale lane)
  if u.told.testBit 0 then (u, c)
  else
    let c := if lane = 6 then c.alert Code.NAN_INPUT_SADDLE noUnit 0 else c.alert Code.NAN_INPUT_VALE lane 0
    ({ u with told := u.told ||| 1 }, c)

/-- Saturated results are counted (R299, R348). -/
def Chip.saturated (c : Chip) (lane n : Nat) : Chip :=
  if n = 0 then c
  else if lane = 6 then (c.raise F.SAD_EVENTS.SATURATE).tallyAdd F.SAD_SAT_COUNT.COUNT n
  else (c.raise (F.VALE_EVENTS.SATURATE.vale lane)).tallyAdd (F.VALE_SAT_COUNT.COUNT.vale lane) n

/-- What an iteration reports takes effect. -/
def Chip.noteWork (c : Chip) (lane : Nat) (u : UnitRun) (frame net : Nat) (n : Note) : UnitRun × Chip :=
  let c := c.saturated lane n.sat
  let c := if n.pairs = 0 then c
    else (c.tallyAdd (F.APX_SKIP_PAIRS.COUNT.vale lane) n.pairs).markNetwork frame net 4
  let c := if n.chunks = 0 then c else c.tallyAdd (F.APX_SKIP_CHUNKS.COUNT.vale lane) n.chunks
  if n.nan then c.nanIn lane u else (u, c)

/-- A group entry that is not processed (R317): out of range. -/
def Chip.walkRange (c : Chip) (lane : Nat) (u : UnitRun) : UnitRun × Chip :=
  let c := c.raise (F.VALE_EVENTS.WALK_RANGE.vale lane)
  let c := if u.told.testBit 1 then c else c.alert Code.WALK_RANGE lane 0
  ({ u with told := u.told ||| 2, tainted := true }, c)

/-- The pass has an estimator. -/
def Work.estimates (w : Work) (g : Prog) : Bool := w.body.on g Kd.ESTIMATE

/-- The estimator's mask of iteration `i` that an array of this shape uses (R308); the array of the estimator's own pass uses none. -/
def UnitRun.maskFor (u : UnitRun) (w : Work) (g : Prog) (d : Dims) (i : Nat) : Option SkipMask :=
  match u.masks[i]? with
  | some k => if k.rows = d.m ∧ k.cols = d.k ∧ w.estimates g = false then some k else none
  | none => none

/-- The pass is the value GEMM that the masks wait for: an ARRAY pass of their shape (DEDUCED, log entry 111). -/
def UnitRun.valueGemm (u : UnitRun) (w : Work) (g : Prog) : Bool :=
  w.body.on g Kd.ARRAY && u.masks.any fun k =>
    if (w.walker g).isSome then decide (k.rows ≤ g.m) && decide (k.cols ≤ g.k) else k.rows == g.m && k.cols == g.k

/-- Iterations `i` to `i + n − 1` of a pass: the unit, the masks made so far, the chip. -/
def Work.iterations (w : Work) (net : Nat) (g : Prog) : Nat → Nat → List SkipMask → UnitRun → Chip → List SkipMask × UnitRun × Chip
  | 0, _, ms, u, c => (ms, u, c)
  | n + 1, i, ms, u, c =>
    match w.walker g with
    | none =>
      let d := g.dims i
      let f := w.iterate g d i (u.maskFor w g d i) c
      let (u, c) := f.chip.noteWork w.lane u w.frame net f.note
      w.iterations net g n (i + 1) (ms ++ f.mask.toList) u c
    | some table =>
      let (bs, c) := c.memRead .engine (poolOf w.lane) (table + 48 * i) 48
      if poisonedEl bs then w.iterations net g n (i + 1) ms { u with poisoned := true } c
      else
        let d := g.walked i (bytesOf bs)
        if w.entryOk g d then
          let f := w.iterate g d i (u.maskFor w g d i) c
          let (u, c) := f.chip.noteWork w.lane u w.frame net f.note
          w.iterations net g n (i + 1) (ms ++ f.mask.toList) u c
        else
          let (u, c) := c.walkRange w.lane u
          w.iterations net g n (i + 1) ms u c

/-- The work of the pass that a lane's unit has begun. -/
def Chip.workOf (c : Chip) (lane : Nat) (u : UnitRun) (r : UnitRec) : Work :=
  let im := c.wiring u.old
  { lane := lane, frame := c.runFrame u.ofs, body := Body.ofBytes r.passCount r.body, regions := im.unitRegions r,
    keepAll := u.exact || c.bit F.APX_STATUS.SKIP_OFF, outs := im.frontOuts c.mosaic, limits := none,
    replaying := none }

/-- The pass program that a unit is at. -/
def Work.prog (w : Work) (u : UnitRun) : Prog := w.body.progs.getD u.pass ⟨0, 0, 0, 0, 0, []⟩

/-- A lane's unit, its record, and the iterations of the pass it has begun and not ended. -/
def Chip.begun (c : Chip) (lane : Nat) : Option (UnitRun × UnitRec × Nat) :=
  match c.laneRun lane with
  | none => none
  | some u =>
    if u.counts.length ≠ u.pass + 1 then none
    else ((c.wiring u.old).unit (laneCode lane) u.unit).map fun r => (u, r, u.counts.getD u.pass 0)

/-- A poisoned group entry marks the records derived from the unit (R449). -/
def Chip.notePoison (c : Chip) (w : Work) (r : UnitRec) (u : UnitRun) : Chip :=
  if u.poisoned then c.markNetwork w.frame r.network 16 else c

/-- The entry of a table in force, or of the old image's, that a unit in progress runs. -/
def Chip.entryOf (c : Chip) (u : UnitRun) : Option Entry :=
  let im := c.wiring u.old
  (c.tableOf im).entries[u.entry % 8192]?

/-- The flits that a Control unit's pass has sent; into how many it cuts its accesses the spec leaves open (R490, log entry 115). -/
def Chip.controlFlits (c : Chip) (u : UnitRun) : Chip :=
  if (c.entryOf u).any fun e => e.cls == 0 then
    let (k, c) := c.draw
    c.countFlits 0 (Config.passFlits k).toNat
  else c

/-- The pass that an engine has begun ends: it has read, computed and written everything. -/
def Chip.finishPass (c : Chip) (lane : Nat) : Chip :=
  if 6 < lane then c
  else match c.begun lane with
    | none => c
    | some (u, r, n) =>
      let w := c.workOf lane u r
      let g := w.prog u
      let (ms, u, c) := w.iterations r.network g n 0 [] u c
      let c := (c.notePoison w r u).controlFlits u
      let c := if lane < 6 then c.setBit (F.VALE_STATUS.WALKING.vale lane) false else c
      c.setRun lane { u with pass := u.pass + 1, masks := if w.estimates g then ms else if u.valueGemm w g then [] else u.masks }

/-- Draw a number below `n` that says how far something has come. -/
def Chip.drawBelow (c : Chip) (n : Nat) : Nat × Chip :=
  let (k, c) := c.draw
  ((Config.stopPoint k).toNat % max 1 n, c)

/-- Draw how many bytes each of the four ports has written. -/
def Chip.drawLimits (c : Chip) : List Nat × Chip :=
  (List.range 4).foldl (fun (s : List Nat × Chip) _ =>
    let (k, c) := s.2.draw
    (s.1 ++ [(Config.stopPoint k).toNat], c)) ([], c)

/-- The WRITE terraces of a pass. -/
def Work.writers (w : Work) (g : Prog) : List Nat :=
  (w.body.terraces.zipIdx.filter fun x : TDesc × Nat => x.1.kind == Kd.WRITE && g.runs x.2).map fun x : TDesc × Nat => x.2

/-- An engine is stopped in a pass: some iterations are whole, and of the next one a part of each port's writes has
committed; a wave in replay has not (R380). -/
def Chip.stopPass (c : Chip) (lane : Nat) : Chip :=
  if 6 < lane then c
  else match c.begun lane with
    | none => c
    | some (u, r, n) =>
      let w := c.workOf lane u r
      let g := w.prog u
      let held := decide (c.now < u.replay.ends)
      let (whole, c) := c.drawBelow (if held then n else n + 1)
      let (ls, c) := c.drawLimits
      let (k, c) := c.drawBelow (w.writers g).length
      let stopped := { w with limits := some ls, replaying := if held then (w.writers g)[k]? else none }
      let (ms, u, c) := w.iterations r.network g whole 0 [] u c
      let (_, u, c) := if whole < n then stopped.iterations r.network g 1 whole ms u c else (ms, u, c)
      ((c.notePoison w r u).controlFlits u).setRun lane u

/-! ### Mover descriptors (R420, R421) -/

/-- A Mover descriptor. -/
structure MDesc where
  op : Nat
  srcMem : Nat
  dstMem : Nat
  rsv : Nat
  x : Nat
  y : Nat
  z : Nat
  src : Nat
  ssy : Int
  ssz : Int
  ssi : Int
  dst : Nat
  dsy : Int
  dsz : Int
  dsi : Int
  p0 : Nat
  p1 : Nat
  p2 : Nat
  deriving DecidableEq, Repr

def MDesc.ofBytes (b : List Byte) : MDesc :=
  { op := leAt b 0 1, srcMem := leAt b 1 1, dstMem := leAt b 2 1, rsv := leAt b 3 1 + leAt b 0x3C 4,
    x := leAt b 4 4, y := leAt b 8 4, z := leAt b 12 4, src := leAt b 16 4, ssy := sleAt b 20 4, ssz := sleAt b 24 4,
    ssi := sleAt b 28 4, dst := leAt b 32 4, dsy := sleAt b 36 4, dsz := sleAt b 40 4, dsi := sleAt b 44 4,
    p0 := leAt b 48 4, p1 := leAt b 52 4, p2 := leAt b 56 4 }

/-- Descriptor of a pass in a Mover body. -/
def moverDesc (body : List Byte) (pass : Nat) : MDesc := MDesc.ofBytes (sliceOf body (16 + 64 * pass) 64)

/-- The constant area of a Mover body. -/
def moverConsts (body : List Byte) : List Byte := sliceOf body (leAt body 4 4) (leAt body 8 4)

/-- Lowest and highest offsets from its start that a rectangle reaches (R422). -/
def MDesc.reach (d : MDesc) (sy sz : Int) (rows : Nat) : Int × Int :=
  let ey := if rows ≤ 1 then 0 else Int.ofNat (rows - 1) * sy
  let ez := if d.z ≤ 1 then 0 else Int.ofNat (d.z - 1) * sz
  (min 0 ey + min 0 ez, max 0 ey + max 0 ez + Int.ofNat d.x - 1)

/-- A COPY's iteration `i` runs in descending order (R424). -/
def MDesc.descending (d : MDesc) (i : Nat) : Bool :=
  let s := Int.ofNat d.src + Int.ofNat i * d.ssi
  let t := Int.ofNat d.dst + Int.ofNat i * d.dsi
  let rs := d.reach d.ssy d.ssz d.y
  let rt := d.reach d.dsy d.dsz d.y
  d.op == 1 && d.srcMem == d.dstMem && decide (s + rs.1 ≤ t + rt.2) && decide (t + rt.1 ≤ s + rs.2) && decide (s < t)

/-! ### PASS_START -/

/-- PASS_START: the pass before ends, and the next pass of a lane's unit begins, taking its count (R314, R373). A Mover's pass then waits
for its operation; which of its iterations DESCENDING shows until then is open where they differ (R424, log entry 114). -/
def Chip.passStart (c : Chip) (lane : Nat) : Chip :=
  let c := c.finishPass lane
  match c.laneRun lane with
  | none => c
  | some u =>
    if u.waiting ∨ u.counts.length ≠ u.pass then c
    else match (c.wiring u.old).unit (laneCode lane) u.unit with
      | none => c
      | some r =>
        match r.passes[u.pass]? with
        | none => c
        | some p =>
          let (n, u, c) := c.passCount lane u p
          let c := if u.poisoned then c.markNetwork (c.runFrame u.ofs) r.network 16 else c
          let c := c.setRun lane { u with counts := u.counts ++ [n], replay := Replay.none }
          if lane = 6 then c
          else if lane < 6 then
            let w := c.workOf lane u r
            c.setBit (F.VALE_STATUS.WALKING.vale lane) (w.walker (w.prog u)).isSome
          else
            let d := moverDesc r.body u.pass
            let m := lane - 7
            let (i, c) := if (List.range n).all fun i => d.descending i == d.descending 0 then (0, c) else c.drawBelow n
            (c.set (F.MOV_STATUS.OP.mov m) d.op).setBit (F.MOV_STATUS.DESCENDING.mov m) (decide (0 < n) && d.descending i)

/-- PASS_START. -/
def execPassStart (lane : Nat) (s : State) : Host.Outcome State Fault Refusal :=
  act (.passStart lane) (fun _ c => c.passStart lane) s

end Sys2Proof.Machine
end

