-- ==== Sys2Proof/Machine/Mover.lean ====
section
/-!
DEFINITION. Machine/Mover.lean: what the Movers' passes COPY, FILL and GATHER do (R420 to R428), and the Movers' accesses.
-/
namespace Sys2Proof.Machine

/-! ### Accesses through the fabric -/

/-- Requests of an access: the 64-byte blocks it touches (R464). -/
def requestsOf (off n : Nat) : Nat := if n = 0 then 0 else (off + n - 1) / 64 - off / 64 + 1

/-- RESET_ABORT replies, one a request. -/
def Chip.countAborts : Nat → Chip → Chip
  | 0, c => c
  | n + 1, c => Chip.countAborts n c.countAbort

/-- A Mover reads: from a block in partial reset, poisoned zeros (R619). -/
def Chip.fabRead (c : Chip) (mem off n : Nat) : List MByte × Chip :=
  if c.memDown mem then (List.replicate n MByte.aborted, Chip.countAborts (requestsOf off n) c) else c.memRead .engine mem off n

/-- A Mover writes: to a block in partial reset, nothing (R619). -/
def Chip.fabWrite (c : Chip) (mem off : Nat) (bs : List MByte) : Chip :=
  if c.memDown mem then Chip.countAborts (requestsOf off bs.length) c else c.memWrite mem off bs

/-- A Mover's write, counted in MOV_BYTES. -/
def Chip.movWrite (c : Chip) (m mem off : Nat) (bs : List MByte) : Chip :=
  (c.fabWrite mem off bs).tallyAdd (F.MOV_BYTES.COUNT.mov m) bs.length

/-! ### Passes -/

/-- The pass that a Mover has begun and not yet done: its unit, record, descriptor and iterations. -/
def Chip.moverPass (c : Chip) (m op : Nat) : Option (UnitRun × UnitRec × MDesc × Nat) :=
  match c.begun (m + 7) with
  | none => none
  | some (u, r, n) =>
    let d := moverDesc r.body u.pass
    if d.op = op then some (u, r, d, n) else none

/-- The pass is done. -/
def Chip.moverDone (c : Chip) (m : Nat) (u : UnitRun) : Chip :=
  let c := (c.set (F.MOV_STATUS.OP.mov m) 0).setBit (F.MOV_STATUS.DESCENDING.mov m) false
  c.setRun (m + 7) { u with pass := u.pass + 1 }

/-- Offset of row (y, z) of a rectangle. -/
def rowAddr (base : Nat) (si sz sy : Int) (i z y : Nat) : Nat :=
  (Int.ofNat base + Int.ofNat i * si + Int.ofNat z * sz + Int.ofNat y * sy).toNat

/-- Indices 0 to `n − 1`, up or down. -/
def upDown (down : Bool) (n : Nat) : List Nat := if down then (List.range n).reverse else List.range n

/-- The rows (y, z) of a rectangle, in the order of traversal (R424). -/
def MDesc.rowList (d : MDesc) (down : Bool) : List (Nat × Nat) :=
  (upDown (xor down (decide (d.dsz < 0))) d.z).flatMap fun z =>
    (upDown (xor down (decide (d.dsy < 0))) d.y).map fun y => (y, z)

/-- Read rows of `x` bytes at offsets. -/
def Chip.readAll (mem x : Nat) : List Nat → Chip → List (List MByte) × Chip
  | [], c => ([], c)
  | a :: as, c =>
    let (bs, c) := c.fabRead mem a x
    let (rs, c) := Chip.readAll mem x as c
    (bs :: rs, c)

/-- What a stop lets commit of a row: its first bytes in the order of traversal, with their offset. -/
def cutRow (mem : Nat) (down : Bool) (limit : Option Nat) (r : Nat × List MByte) : Nat × List MByte :=
  match limit with
  | none => r
  | some n =>
    let k := min r.2.length (if mem = 8 then n / 64 * 64 else n)
    if down then (r.1 + (r.2.length - k), r.2.drop (r.2.length - k)) else (r.1, r.2.take k)

/-- Write rows at offsets, up to a limit in bytes. -/
def Chip.writeAll (m mem : Nat) (down : Bool) : Option Nat → List (Nat × List MByte) → Chip → Chip
  | _, [], c => c
  | limit, r :: rs, c =>
    let w := cutRow mem down limit r
    Chip.writeAll m mem down (limit.map fun n => n - r.2.length) rs (c.movWrite m mem w.1 w.2)

/-- Iterations `0` to `n − 1` of something. -/
def Chip.repeatFor (f : Nat → Chip → Chip) (n : Nat) (c : Chip) : Chip := (List.range n).foldl (fun c i => f i c) c

/-- One iteration of COPY: the whole source is read before a byte is written (R423). -/
def Chip.copyOnce (m : Nat) (d : MDesc) (limit : Option Nat) (i : Nat) (c : Chip) : Chip :=
  let down := d.descending i
  let src := (d.rowList down).map fun r => rowAddr d.src d.ssi d.ssz d.ssy i r.2 r.1
  let dst := (d.rowList down).map fun r => rowAddr d.dst d.dsi d.dsz d.dsy i r.2 r.1
  let (rows, c) := Chip.readAll d.srcMem d.x src c
  Chip.writeAll m d.dstMem down limit (dst.zip rows) c

/-- COPY. -/
def Chip.copy (c : Chip) (m : Nat) : Chip :=
  match c.moverPass m 1 with
  | none => c
  | some (u, _, d, n) => (Chip.repeatFor (Chip.copyOnce m d none) n c).moverDone m u

/-- COPY. -/
def execCopy (m : Nat) (s : State) : Host.Outcome State Fault Refusal := act (.copy m) (fun _ c => c.copy m) s

/-- One iteration of FILL (R426). -/
def Chip.fillOnce (m : Nat) (d : MDesc) (limit : Option Nat) (i : Nat) (c : Chip) : Chip :=
  let pat := leBytes 4 d.p0 ++ leBytes 4 d.p1
  let row := (List.range d.x).map fun x => MByte.clean (pat.getD (x % 8) 0)
  Chip.writeAll m d.dstMem false limit ((d.rowList false).map fun r => (rowAddr d.dst d.dsi d.dsz d.dsy i r.2 r.1, row)) c

/-- MOVER_FILL. -/
def Chip.moverFill (c : Chip) (m : Nat) : Chip :=
  match c.moverPass m 2 with
  | none => c
  | some (u, _, d, n) => (Chip.repeatFor (Chip.fillOnce m d none) n c).moverDone m u

/-- MOVER_FILL. -/
def execMoverFill (m : Nat) (s : State) : Host.Outcome State Fault Refusal :=
  act (.moverFill m) (fun _ c => c.moverFill m) s

/-- An index of a GATHER's list: an index, or poisoned. -/
def gatherIndex (bs : List MByte) : Option Nat := if poisonedEl bs then none else some (leAt (bytesOf bs) 0 4)

/-- An index beyond LIMIT (R427): logged, and a fault at the first of a unit. -/
def Chip.gatherRange (c : Chip) (m idx : Nat) (u : UnitRun) : UnitRun × Chip :=
  let c := (c.set (F.MOV_GATHER_LOG.INDEX.mov m) idx).raise F.MEM_EVENTS.GATHER_RANGE
  let c := if u.told.testBit 2 then c else c.alert Code.GATHER_RANGE noUnit 0
  ({ u with told := u.told ||| 4, tainted := true }, c)

/-- One destination row of a GATHER, cut to `limit` bytes by a stop. -/
def Chip.gatherRow (m : Nat) (d : MDesc) (limit : Option Nat) (i : Nat) (row : Option Nat × Nat × Nat) (s : UnitRun × Chip) :
    UnitRun × Chip :=
  let (u, c) := s
  let dst := rowAddr d.dst d.dsi d.dsz d.dsy i row.2.2 row.2.1
  let put (c : Chip) (bs : List MByte) : Chip := c.movWrite m d.dstMem dst (cutTo d.dstMem limit bs)
  match row.1 with
  | none => (u, put c (List.replicate d.x MByte.aborted))
  | some idx =>
    if idx = 0xFFFFFFFF then (u, put c (List.replicate d.x (MByte.clean 0)))
    else if d.p2 ≤ idx then c.gatherRange m idx u
    else
      let (bs, c) := c.fabRead d.srcMem (rowAddr d.src d.ssi d.ssz d.ssy i row.2.2 idx) d.x
      (u, put c bs)

/-- Rows of a GATHER in order, up to a limit in bytes. -/
def Chip.gatherRows (m : Nat) (d : MDesc) (i : Nat) (idx : List (Option Nat)) :
    Option Nat → List (Nat × Nat) → UnitRun × Chip → UnitRun × Chip
  | _, [], s => s
  | limit, r :: rs, s =>
    if limit = some 0 then s
    else Chip.gatherRows m d i idx (limit.map fun n => n - d.x) rs
      (Chip.gatherRow m d limit i (idx.getD r.1 none, r.1, r.2) s)

/-- One iteration of GATHER. -/
def Chip.gatherOnce (m : Nat) (d : MDesc) (limit : Option Nat) (i : Nat) (s : UnitRun × Chip) : UnitRun × Chip :=
  let (lists, c) := Chip.readAll (d.p1 % 256) 4 ((List.range d.y).map fun y => d.p0 + 4 * d.y * i + 4 * y) s.2
  Chip.gatherRows m d i (lists.map gatherIndex) limit (d.rowList false) (s.1, c)

/-- GATHER. -/
def Chip.gather (c : Chip) (m : Nat) : Chip :=
  match c.moverPass m 3 with
  | none => c
  | some (u, _, d, n) =>
    let (u, c) := (List.range n).foldl (fun s i => Chip.gatherOnce m d none i s) (u, c)
    c.moverDone m u

/-- GATHER. -/
def execGather (m : Nat) (s : State) : Host.Outcome State Fault Refusal := act (.gather m) (fun _ c => c.gather m) s

end Sys2Proof.Machine
end

