-- ==== Sys2Proof/Machine/Experts.lean ====
section
/-!
DEFINITION. Machine/Experts.lean: expert layers (R351, R352), ROUTE (R353 to R358), COMBINE (R360, R361), demand and placement
(R364 to R371), and how a Mover's pass stops partway (R428, R623).
-/
namespace Sys2Proof.Machine

/-! ### The EXPERTS and STATE_MACHINE sections -/

/-- A seat record (R351). -/
structure SeatRec where
  vale : Nat
  expert : Nat
  inAddr : Nat
  hidAddr : Nat
  outAddr : Nat
  bank0 : Nat
  bank1 : Nat
  rsv : Nat
  deriving DecidableEq, Repr

/-- A layer descriptor (R351). -/
structure LayerRec where
  network : Nat
  e : Nat
  kmax : Nat
  tau : Nat
  flags : Nat
  stages : Nat
  cap : Nat
  rowBytes : Nat
  k0 : Nat
  n0 : Nat
  k1 : Nat
  n1 : Nat
  inStride : Nat
  hidStride : Nat
  outStride : Nat
  w0 : Nat
  w1 : Nat
  w1Ofs : Nat
  wsize : Nat
  region : Nat
  masterOfs : Nat
  tables : List Nat
  rsv : Nat
  seats : List SeatRec
  deriving DecidableEq, Repr

def SeatRec.ofBytes (b : List Byte) : SeatRec :=
  { vale := leAt b 0 1, expert := leAt b 1 1, inAddr := leAt b 4 4, hidAddr := leAt b 8 4, outAddr := leAt b 12 4,
    bank0 := leAt b 16 4, bank1 := leAt b 20 4, rsv := leAt b 2 2 }

/-- The layer descriptor at the start of a byte string. -/
def LayerRec.ofBytes (b : List Byte) : LayerRec :=
  { network := leAt b 0 2, e := leAt b 2 1, kmax := leAt b 3 1, tau := leAt b 4 4, flags := leAt b 8 1,
    stages := leAt b 9 1, cap := leAt b 12 2, rowBytes := leAt b 14 2, k0 := leAt b 16 4, n0 := leAt b 20 4,
    k1 := leAt b 24 4, n1 := leAt b 28 4, inStride := leAt b 32 4, hidStride := leAt b 36 4, outStride := leAt b 40 4,
    w0 := leAt b 44 4, w1 := leAt b 48 4, w1Ofs := leAt b 52 4, wsize := leAt b 56 4, region := leAt b 60 2,
    masterOfs := leAt b 64 4, tables := (List.range 6).map (fun v => leAt b (68 + 4 * v) 4),
    rsv := leAt b 11 1 + leAt b 62 2 + leAt b 92 4,
    seats := (recordsOf 24 (sliceOf b 96 (24 * leAt b 10 1))).map SeatRec.ofBytes }

/-- The next `n` layer descriptors of a byte string. -/
def layersFrom : Nat → List Byte → List LayerRec
  | 0, _ => []
  | n + 1, b => LayerRec.ofBytes b :: layersFrom n (b.drop (96 + 24 * leAt b 10 1))

/-- The layers of an image. -/
def Image.layerRecs (im : Image) : List LayerRec :=
  let b := im.body Ty.EXPERTS 0
  layersFrom (leAt b 2 1) (b.drop (leAt b 8 4))

/-- A placement policy (R365). -/
structure Policy where
  layer : Nat
  minRep : Nat
  maxRep : Nat
  moveMax : Nat
  period : Nat
  rsv : Nat
  deriving DecidableEq, Repr

/-- The policies of an image. -/
def Image.policies (im : Image) : List Policy :=
  (recordsOf 16 (im.body Ty.STATE_MACHINE 0)).map fun b =>
    { layer := leAt b 0 1, minRep := leAt b 1 1, maxRep := leAt b 2 1, moveMax := leAt b 3 1, period := leAt b 4 2,
      rsv := leNat (sliceOf b 6 10) }

/-- A layer when its image comes into force (R371). -/
def LayerRec.initial (r : LayerRec) : Layer :=
  let seats := r.seats.map fun s => some s.expert
  let banks := r.seats.map fun _ => false
  { demand := [], accepted := [], lastDemand := [], lastAccepted := [], period := [], routed := 0, dropped := 0,
    lastRouted := 0, lastDropped := 0, seats := seats, banks := banks, prevSeats := seats, prevBanks := banks,
    pending := none, copied := [], fills := [], switched := false, dueSwitch := false, dueDecision := false, age := 0,
    version := 0 }

/-! ### Layers in place -/

/-- Entry `i` of a list of counts; 0 beyond its end. -/
def natAt (xs : List Nat) (i : Nat) : Nat := xs.getD i 0

/-- A list of counts with entry `i` replaced. -/
def setNat (xs : List Nat) (i v : Nat) : List Nat := (xs ++ List.replicate (i + 1 - xs.length) 0).set i v

/-- Layer `l` of the image in force, or of the one replaced at the last swap. -/
def Chip.layer (c : Chip) (old : Bool) (l : Nat) : Option Layer := (if old then c.layersOld else c.layers)[l]?

/-- Put a layer in place. -/
def Chip.setLayer (c : Chip) (old : Bool) (l : Nat) (x : Layer) : Chip :=
  if old then { c with layersOld := c.layersOld.set l x } else { c with layers := c.layers.set l x }

/-- Expert and active bank of seat `s` for a frame: of this frame, or of the frame before (R368). -/
def Layer.placed (x : Layer) (ofs s : Nat) : Option Nat × Bool :=
  if ofs = 0 then ((x.seats.getD s none), x.banks.getD s false) else ((x.prevSeats.getD s none), x.prevBanks.getD s false)

/-- A layer of an image that a swap replaces, at that edge: its spill work serves the frame before from that frame's placement, and the
fills of the tick start from 0 (R355, R368). -/
def Layer.spill (x : Layer) : Layer :=
  { x with fills := [], routed := 0, dropped := 0, prevSeats := x.seats, prevBanks := x.banks }

/-- A Vale's seats are unavailable (R369). -/
def Chip.valeOut (c : Chip) (v : Nat) : Bool := c.sched.fencedEdge.testBit v

/-! ### ROUTE -/

/-- The parameter block of ROUTE (R353). -/
structure RouteParam where
  layer : Nat
  fmt : Nat
  first : Nat
  tiles : Nat
  tokens : Nat
  gate : Nat
  inBase : Nat
  tileStride : Nat
  rowStride : Nat
  records : Nat
  queues : List Nat
  rsv : Nat
  deriving DecidableEq, Repr

def RouteParam.ofBytes (b : List Byte) : RouteParam :=
  { layer := leAt b 0 1, fmt := leAt b 1 1, first := leAt b 2 1, tiles := leAt b 3 1, tokens := leAt b 4 2,
    gate := leAt b 8 4, inBase := leAt b 12 4, tileStride := leAt b 16 4, rowStride := leAt b 20 4, records := leAt b 24 4,
    queues := (List.range 6).map (fun v => leAt b (28 + 2 * v) 2), rsv := leAt b 6 2 + leNat (sliceOf b 40 8) }

/-- One assignment of a token: expert, weight, and its seat and row when it is accepted. -/
structure Assign where
  expert : Nat
  weight : Nat
  place : Option (Nat × Nat)
  deriving DecidableEq, Repr

/-- The experts that a token selects, in ascending order, and whether candidates were left out (R354). -/
def selectExperts (kmax tau : Nat) (g : List Nat) : List Nat × Bool :=
  let cands := (g.zipIdx.filter fun x => !FE.lt x.1 tau).foldl (fun s x => insertScore x s) []
  let chosen := (cands.take kmax).map (·.2)
  ((List.range g.length).filter chosen.contains, decide (kmax < cands.length))

/-- The weight of each selected expert. -/
def expertWeights (norm : Bool) (g : List Nat) (sel : List Nat) : List Nat :=
  let gs := sel.map fun e => g.getD e 0
  if norm then
    let s := match gs with
      | [] => 0
      | x :: xs => xs.foldl FE.add x
    gs.map fun x => FE.mul x (FE.rcp s)
  else gs

/-- The seat that takes the next token of an expert. -/
def Chip.seatFor (c : Chip) (r : LayerRec) (x : Layer) (ofs e : Nat) : Option Nat :=
  let open_ := (List.range r.seats.length).filter fun s =>
    (x.placed ofs s).1 == some e && decide (natAt x.fills s < r.cap) &&
      !c.valeOut (r.seats.getD s ⟨0, 0, 0, 0, 0, 0, 0, 0⟩).vale
  open_.foldl (fun (best : Option Nat) s =>
    match best with
    | none => some s
    | some b => if natAt x.fills s < natAt x.fills b then some s else some b) none

/-- Seat record `s` of a layer. -/
def LayerRec.seat (r : LayerRec) (s : Nat) : SeatRec := r.seats.getD s ⟨0, 0, 0, 0, 0, 0, 0, 0⟩

/-- The bytes of a route record (R356). -/
def routeRecord (tag frame flags : Nat) (as : List Assign) : List Byte :=
  let drops := (as.zipIdx.filter fun a => a.1.place.isNone).foldl (fun n a => n + 2 ^ a.2) 0
  let one (a : Assign) : List Byte :=
    match a.place with
    | some p => leBytes 1 a.expert ++ leBytes 1 p.1 ++ leBytes 2 p.2 ++ leBytes 4 a.weight
    | none => leBytes 1 a.expert ++ leBytes 1 0xFF ++ leBytes 2 0xFFFF ++ leBytes 4 a.weight
  let absent : List Byte := [0xFF, 0xFF, 0xFF, 0xFF, 0, 0, 0, 0]
  leBytes 2 tag ++ leBytes 1 as.length ++ leBytes 1 flags ++ leBytes 1 drops ++ leBytes 1 frame ++ leBytes 2 0 ++
    as.flatMap one ++ (List.replicate (4 - as.length) absent).flatMap id

/-- What one ROUTE call works over. -/
structure RouteCall where
  m : Nat
  old : Bool
  ofs : Nat
  frame : Nat
  r : LayerRec
  q : RouteParam
  deriving Repr

/-- Place one selected expert of a token: copy the token row, or drop the assignment (R354). -/
def RouteCall.assign (k : RouteCall) (row : List MByte) (s : List Assign × Layer × Chip) (ew : Nat × Nat) :
    List Assign × Layer × Chip :=
  let (as, x, c) := s
  let e := ew.1
  let x := { x with demand := setNat x.demand e (min 0xFFFF (natAt x.demand e + 1)),
                    period := setNat x.period e (min 0xFFFFFFFF (natAt x.period e + 1)) }
  match c.seatFor k.r x k.ofs e with
  | some i =>
    let f := natAt x.fills i
    let seat := k.r.seat i
    let c := c.movWrite k.m (seat.vale + 2) (seat.inAddr + f * k.r.inStride) row
    let x := { x with fills := setNat x.fills i (f + 1),
                      accepted := setNat x.accepted e (min 0xFFFF (natAt x.accepted e + 1)) }
    (as ++ [⟨e, ew.2, some (i, f)⟩], x, c)
  | none => (as ++ [⟨e, ew.2, none⟩], x, c)

/-- One token (R354, R356, R357). -/
def RouteCall.token (k : RouteCall) (s : Layer × Chip) (i : Nat) : Layer × Chip :=
  let (x, c) := s
  let t := k.q.first + i / k.q.tokens
  let j := i % k.q.tokens
  let size := fmtBits k.q.fmt / 8
  let (gs, c) := c.fabRead 0 (k.q.gate + i * k.r.e * size) (k.r.e * size)
  let x := { x with routed := x.routed + 1 }
  let put (c : Chip) (flags : Nat) (as : List Assign) : Chip :=
    c.movWrite k.m 0 (k.q.records + 40 * i) ((routeRecord (1024 * t + j) k.frame flags as).map MByte.clean)
  if poisonedEl gs then (x, (put c 2 []).alertOnce Code.ROUTE_POISON noUnit 0)
  else
    let g := (rowElts k.q.fmt k.r.e gs).map fun e : Elt => (e.real k.q.fmt).1
    let (sel, clamped) := selectExperts k.r.kmax (engineIn k.r.tau).1 g
    let ws := expertWeights (k.r.flags % 2 == 1) g sel
    let (row, c) :=
      if sel.isEmpty then ([], c)
      else c.fabRead 0 (k.q.inBase + t * k.q.tileStride + j * k.q.rowStride) k.r.rowBytes
    let (as, x, c) := (sel.zip ws).foldl (k.assign row) ([], x, c)
    let dropped := as.any fun a => a.place.isNone
    let c := put c (dropped.toNat + 4 * clamped.toNat) as
    if dropped then
      ({ x with dropped := x.dropped + 1 }, (c.raise F.RT_EVENTS.DROPPED).markNetwork k.frame k.r.network 8)
    else (x, c)

/-- The group entry of a seat for a stage (R359): `f` is the call's first row, `n` the rows it filled. -/
def RouteCall.entry (k : RouteCall) (x : Layer) (stage s f n : Nat) : List Byte :=
  let r := k.r
  let seat := r.seat s
  let place := x.placed k.ofs s
  let bank := if place.2 then seat.bank1 else seat.bank0
  let inA := (seat.inAddr + f * r.inStride, r.inStride)
  let hid := (seat.hidAddr + f * r.hidStride, r.hidStride)
  let out := (seat.outAddr + f * r.outStride, r.outStride)
  let a := if stage = 0 then inA else hid
  let cc := if stage = 0 ∧ r.stages = 2 then hid else out
  let b := if stage = 0 then (bank, r.w0) else (bank + r.w1Ofs, r.w1)
  leBytes 4 n ++ leBytes 4 (if stage = 0 then r.n0 else r.n1) ++ leBytes 4 (if stage = 0 then r.k0 else r.k1) ++
    leBytes 4 a.1 ++ leBytes 4 a.2 ++ leBytes 4 b.1 ++ leBytes 4 b.2 ++ leBytes 4 cc.1 ++ leBytes 4 cc.2 ++
    leBytes 1 (place.1.getD 0xFF) ++ leBytes 1 s ++ List.replicate 10 0

/-- Seats on a Vale. -/
def LayerRec.seatsOn (r : LayerRec) (v : Nat) : List Nat := (List.range r.seats.length).filter fun s => (r.seat s).vale == v

/-- Write the group entries of a Vale (R358). -/
def RouteCall.entries (k : RouteCall) (x : Layer) (fills0 : List Nat) (c : Chip) (v : Nat) : Chip :=
  if k.q.queues.getD v 0xFFFF = 0xFFFF then c
  else
    let on := k.r.seatsOn v
    let got := on.filter fun s => decide (natAt fills0 s < natAt x.fills s)
    (List.range k.r.stages).foldl (fun c st => (got.zipIdx).foldl (fun c g =>
      let f := natAt fills0 g.1
      c.movWrite k.m (v + 2) (natAt k.r.tables v + 48 * (st * on.length + g.2))
        ((k.entry x st g.1 f (natAt x.fills g.1 - f)).map MByte.clean)) c) c

/-- A lane pushes to a queue; a push that must wait is kept (R476). -/
def Chip.lanePush (c : Chip) (lane q : Nat) (el : List MByte) : Chip :=
  let stalls := QDesc.full (c.mem.descriptor q) == 2
  let (st, c) := c.qPush q el true
  if st = 1 ∧ stalls = true then
    { c with fabric := { c.fabric with stalled := c.fabric.stalled ++ [StalledPush.mk lane (laneNode lane) q el none] } }
  else c

/-- Push the count words of a Vale (R358). -/
def RouteCall.counts (k : RouteCall) (x : Layer) (fills0 : List Nat) (c : Chip) (v : Nat) : Chip :=
  let q := k.q.queues.getD v 0xFFFF
  if q = 0xFFFF then c
  else
    let n := ((k.r.seatsOn v).filter fun s => decide (natAt fills0 s < natAt x.fills s)).length
    (List.range k.r.stages).foldl (fun c _ => c.lanePush (k.m + 7) q ((leBytes 4 n).map MByte.clean)) c

/-- A ROUTE call; a stop lets `limit` tokens be processed. -/
def Chip.routeRun (c : Chip) (m : Nat) (u : UnitRun) (rec : UnitRec) (d : MDesc) (limit : Option Nat) : Chip :=
  let q := RouteParam.ofBytes (sliceOf (moverConsts rec.body) d.p0 48)
  match (c.wiring u.old).layerRecs[q.layer]?, c.layer u.old q.layer with
  | some r, some x =>
    let k : RouteCall := { m := m, old := u.old, ofs := u.ofs, frame := c.runFrame u.ofs, r := r, q := q }
    let all := q.tiles * q.tokens
    let (x', c) := (List.range ((limit.map fun n => min n all).getD all)).foldl k.token (x, c)
    let c := c.setLayer u.old q.layer x'
    if limit.isSome then c
    else
      let c := (List.range 6).foldl (k.entries x' x.fills) c
      (List.range 6).foldl (k.counts x' x.fills) c
  | _, _ => c

/-- ROUTE. -/
def Chip.route (c : Chip) (m : Nat) : Chip :=
  match c.moverPass m 4 with
  | none => c
  | some (u, r, d, n) => (Chip.repeatFor (fun _ c => c.routeRun m u r d none) n c).moverDone m u

/-- ROUTE. -/
def execRoute (m : Nat) (s : State) : Host.Outcome State Fault Refusal := act (.route m) (fun _ c => c.route m) s

/-! ### COMBINE -/

/-- The parameter block of COMBINE (R360). -/
structure CombineParam where
  layer : Nat
  resFmt : Nat
  outFmt : Nat
  first : Nat
  tiles : Nat
  expFmt : Nat
  tokens : Nat
  records : Nat
  resBase : Nat
  outBase : Nat
  tileStride : Nat
  rowStride : Nat
  rsv : Nat
  deriving DecidableEq, Repr

def CombineParam.ofBytes (b : List Byte) : CombineParam :=
  { layer := leAt b 0 1, resFmt := leAt b 1 1, outFmt := leAt b 2 1, first := leAt b 3 1, tiles := leAt b 4 1,
    expFmt := leAt b 5 1, tokens := leAt b 6 2, records := leAt b 8 4, resBase := leAt b 12 4, outBase := leAt b 16 4,
    tileStride := leAt b 20 4, rowStride := leAt b 24 4, rsv := leAt b 28 4 }

/-- Elements of a combined row. -/
def LayerRec.nOut (r : LayerRec) : Nat := if r.stages = 2 then r.n1 else r.n0

/-- One accepted assignment adds to the row. -/
def Chip.combineOne (r : LayerRec) (q : CombineParam) (rec : List Byte) (s : List Elt × Chip) (i : Nat) : List Elt × Chip :=
  let o := 8 + 8 * i
  match r.seats[leAt rec (o + 1) 1]? with
  | some seat =>
    if leAt rec o 1 = 0xFF ∨ (leAt rec 4 1).testBit i = true then s
    else
      let (bs, c) := s.2.fabRead (seat.vale + 2) (seat.outAddr + leAt rec (o + 2) 2 * r.outStride) (rowSize q.expFmt r.nOut)
      let xs := rowElts q.expFmt r.nOut bs
      let w := (engineIn (leAt rec (o + 4) 4)).1
      ((s.1.zip xs).map fun e : Elt × Elt => ⟨Int.ofNat (FE.fma w (e.2.real q.expFmt).1 e.1.v.toNat), 0, e.1.p || e.2.p⟩, c)
  | none => s

/-- One token of a COMBINE (R360, R361): the unit, marked when the record is not this frame's, and the chip. -/
def Chip.combineToken (m frame : Nat) (r : LayerRec) (q : CombineParam) (s : UnitRun × Chip) (i : Nat) : UnitRun × Chip :=
  let (u, c) := s
  let t := q.first + i / q.tokens
  let j := i % q.tokens
  let (rb, c) := c.fabRead 0 (q.records + 40 * i) 40
  let rec_ := bytesOf rb
  let mine := leAt rec_ 0 2 == 1024 * t + j && leAt rec_ 5 1 == frame % 256
  let at_ := t * q.tileStride + j * q.rowStride
  let (acc, c) :=
    if q.resFmt = 0xFF then (List.replicate r.nOut (⟨0, 0, false⟩ : Elt), c)
    else
      let (bs, c) := c.fabRead 0 (q.resBase + at_) (rowSize q.resFmt r.nOut)
      ((rowElts q.resFmt r.nOut bs).map fun e : Elt => (⟨Int.ofNat (e.real q.resFmt).1, 0, e.p⟩ : Elt), c)
  let (acc, c) := if mine then (List.range 4).foldl (Chip.combineOne r q rec_) (acc, c) else (acc, c)
  let p := poisonedEl rb || rowPoison acc
  let out := acc.map fun e : Elt => Elt.ofReal q.outFmt e.v.toNat p
  (if mine then u else { u with tainted := true }, c.movWrite m 0 (q.outBase + at_) (out.flatMap (Elt.bytes q.outFmt)))

/-- A COMBINE call; a stop lets `limit` tokens be processed. -/
def Chip.combineRun (m : Nat) (rec : UnitRec) (d : MDesc) (limit : Option Nat) (s : UnitRun × Chip) : UnitRun × Chip :=
  let q := CombineParam.ofBytes (sliceOf (moverConsts rec.body) d.p0 32)
  match (s.2.wiring s.1.old).layerRecs[q.layer]? with
  | some r =>
    let all := q.tiles * q.tokens
    (List.range ((limit.map fun n => min n all).getD all)).foldl
      (Chip.combineToken m (s.2.runFrame s.1.ofs) r q) s
  | none => s

/-- COMBINE. -/
def Chip.combine (c : Chip) (m : Nat) : Chip :=
  match c.moverPass m 5 with
  | none => c
  | some (u, r, d, n) =>
    let (u, c) := (List.range n).foldl (fun s _ => Chip.combineRun m r d none s) (u, c)
    c.moverDone m u

/-- COMBINE. -/
def execCombine (m : Nat) (s : State) : Host.Outcome State Fault Refusal := act (.combine m) (fun _ c => c.combine m) s

/-! ### PLACE -/

/-- Copy up to `left` bytes of one pending seat's master weights into its inactive bank (R367). -/
def Chip.placeSeat (m : Nat) (r : LayerRec) (base : Nat) (s : Nat × Layer × Chip) (i : Nat) : Nat × Layer × Chip :=
  let (left, x, c) := s
  match x.pending.bind fun p : List (Option Nat) => p.getD i none with
  | none => s
  | some e =>
    let done := natAt x.copied i
    let n := min left (r.wsize - done)
    if n = 0 then s
    else
      let seat := r.seat i
      let bank := if x.banks.getD i false then seat.bank0 else seat.bank1
      let (bs, c) := c.fabRead 8 (base + r.masterOfs + e * r.wsize + done) n
      (left - n, { x with copied := setNat x.copied i (done + n) }, c.movWrite m (seat.vale + 2) (bank + done) bs)

/-- A PLACE run of at most `most` bytes. -/
def Chip.placeRun (c : Chip) (m : Nat) (old : Bool) (l most : Nat) : Chip :=
  match (c.wiring old).layerRecs[l]?, c.layer old l with
  | some r, some x =>
    if x.switched then c
    else
      let base := (((c.wiring old).regions.find? fun g => g.id == r.region).map fun g : Region => g.base).getD 0
      let (_, x, c) := (List.range r.seats.length).foldl (Chip.placeSeat m r base) (most, x, c)
      c.setLayer old l x
  | _, _ => c

/-- Layer and BYTES_MAX of a PLACE. -/
def placeParam (rec : UnitRec) (d : MDesc) : Nat × Nat :=
  let b := sliceOf (moverConsts rec.body) d.p0 16
  (leAt b 0 1, leAt b 4 4)

/-- PLACE. -/
def Chip.place (c : Chip) (m : Nat) : Chip :=
  match c.moverPass m 6 with
  | none => c
  | some (u, r, d, n) =>
    let q := placeParam r d
    (Chip.repeatFor (fun _ c => c.placeRun m u.old q.1 q.2) n c).moverDone m u

/-- PLACE. -/
def execPlace (m : Nat) (s : State) : Host.Outcome State Fault Refusal := act (.place m) (fun _ c => c.place m) s

/-! ### A Mover's pass is stopped -/

/-- Iteration `i` of a Mover's pass, up to a limit: bytes of a COPY, FILL, GATHER or PLACE, tokens of the others. -/
def Chip.moverIter (m : Nat) (r : UnitRec) (d : MDesc) (limit : Option Nat) (s : UnitRun × Chip) (i : Nat) : UnitRun × Chip :=
  match d.op with
  | 1 => (s.1, Chip.copyOnce m d limit i s.2)
  | 2 => (s.1, Chip.fillOnce m d limit i s.2)
  | 3 => Chip.gatherOnce m d limit i s
  | 4 => (s.1, s.2.routeRun m s.1 r d limit)
  | 5 => Chip.combineRun m r d limit s
  | 6 =>
    let q := placeParam r d
    (s.1, s.2.placeRun m s.1.old q.1 ((limit.map fun n => min n q.2).getD q.2))
  | _ => s

/-- A Mover is stopped in a pass: some iterations are whole, and a part of the next (R428, R623). -/
def Chip.stopMover (c : Chip) (m : Nat) : Chip :=
  match c.begun (m + 7) with
  | none => c
  | some (u, r, n) =>
    let d := moverDesc r.body u.pass
    let (whole, c) := c.drawBelow (n + 1)
    let (k, c) := c.draw
    let s := (List.range whole).foldl (Chip.moverIter m r d none) (u, c)
    let (u, c) := if whole < n then Chip.moverIter m r d (some (Config.stopPoint k).toNat) s whole else s
    c.setRun (m + 7) u

/-- A lane's unit is stopped in its pass. -/
def Chip.stopInPass (c : Chip) (lane : Nat) : Chip := if lane ≤ 6 then c.stopPass lane else c.stopMover (lane - 7)

/-! ### Placement (R364 to R371) -/

/-- A unit runs in EXACT mode (R396): under the settings in force, or under those pending (R397). -/
def Chip.unitExact (c : Chip) (pending : Bool) (r : UnitRec) (e : Entry) : Bool :=
  let get (f : Fld) : Nat := if pending then c.fld f else c.live f
  r.flags % 2 == 1 || e.flags % 2 == 1 || get F.APX_CTRL.EXACT == 1 ||
    (List.range 8).any fun i => get (F.APX_NET.EN.el i) == 1 && get (F.APX_NET.NETWORK_ID.el i) == r.network

/-- A layer is frozen: by RT_CTRL.FREEZE, by global EXACT, or as a layer of a network of which a unit runs in EXACT mode (R370, R399). -/
def Chip.layerFrozen (c : Chip) (r : LayerRec) : Bool :=
  c.bit F.APX_STATUS.EXACT || c.liveBit F.RT_CTRL.FREEZE ||
  c.table.entries.any fun e =>
    decide (e.lane ≤ 8) &&
    match c.image.unit e.lane e.unitId with
    | some u => u.network == r.network && c.unitExact false u e
    | none => false

/-- Seats that carry an expert in the placement in force. -/
def Layer.seatsOf (x : Layer) (e : Nat) : List Nat := (List.range x.seats.length).filter fun s => x.seats.getD s none == some e

/-- Give out seats by demand (R366): `left` available seats, seats given so far. -/
def giveSeats (maxRep : Nat) (demand : List Nat) : Nat → List Nat → List Nat
  | 0, r => r
  | left + 1, r =>
    let best := (List.range r.length).foldl (fun (b : Option Nat) e =>
      if natAt r e < maxRep then
        match b with
        | none => some e
        | some f => if (natAt demand f + 1) * (natAt r e + 1) < (natAt demand e + 1) * (natAt r f + 1) then some e else some f
      else b) none
    match best with
    | none => r
    | some e => giveSeats maxRep demand left (setNat r e (natAt r e + 1))

/-- Match gainers with loser seats: each takes the one on the Vale that holds fewest of its seats (R366). -/
def takeSeats (r : LayerRec) : List Nat → List Nat → List (Option Nat) → List (Nat × Nat)
  | [], _, _ => []
  | e :: es, losers, seats =>
    let held (s : Nat) : Nat :=
      ((r.seatsOn (r.seat s).vale).filter fun t => seats.getD t none == some e).length
    let best := losers.foldl (fun (b : Option Nat) s =>
      match b with
      | none => some s
      | some t => if held s < held t then some s else some t) none
    match best with
    | none => []
    | some s => (s, e) :: takeSeats r es (losers.filter fun t => t != s) (seats.set s (some e))

/-- The new seats of a decision, as (seat, expert) (R366). -/
def Chip.decide_ (c : Chip) (r : LayerRec) (p : Policy) (x : Layer) : List (Nat × Nat) :=
  let avail := (List.range r.seats.length).filter fun s => !c.valeOut (r.seat s).vale
  let counts := (List.range r.e).map fun e => (x.seatsOf e).length
  let wanted := giveSeats p.maxRep x.period (avail.length - r.e * p.minRep) ((List.range r.e).map fun _ => p.minRep)
  let losers := ((List.range r.e).flatMap fun e =>
      let n := natAt counts e - natAt wanted e
      (x.seatsOf e).drop ((x.seatsOf e).length - n)) ++ avail.filter fun s => (x.seats.getD s none).isNone
  let gainers := (List.range r.e).flatMap fun e => List.replicate (natAt wanted e - natAt counts e) e
  let m := min (min gainers.length losers.length) p.moveMax
  takeSeats r (gainers.take m) (losers.take m) x.seats

/-- PLACEMENT_DECISION: the decision of a layer at a decision edge (R366, R369). -/
def Chip.placementDecision (c : Chip) (l : Nat) : Chip :=
  match c.image.layerRecs[l]?, c.layer false l, c.image.policies.find? fun p => p.layer == l with
  | some r, some x, some p =>
    if c.dev.ticking && x.dueDecision then
      let done := { x with dueDecision := false, period := [] }
      if c.layerFrozen r then c.setLayer false l done
      else if x.pending.isSome then (c.setLayer false l done).raise F.RT_EVENTS.PLACE_SKIP
      else
        let moves := c.decide_ r p x
        if moves.isEmpty then c.setLayer false l done
        else
          let pend := moves.foldl (fun (q : List (Option Nat)) mv => q.set mv.1 (some mv.2)) (r.seats.map fun _ => none)
          c.setLayer false l { done with pending := some pend, copied := [] }
    else c
  | _, _, _ => c

/-- PLACEMENT_DECISION. -/
def execPlacementDecision (l : Nat) (s : State) : Host.Outcome State Fault Refusal :=
  act (.placementDecision l) (fun _ c => c.placementDecision l) s

/-- Every pending seat is copied whole. -/
def Layer.copiedAll (x : Layer) (r : LayerRec) : Bool :=
  match x.pending with
  | none => false
  | some p => p.zipIdx.all fun s => s.1.isNone || decide (r.wsize ≤ natAt x.copied s.2)

/-- PLACEMENT_SWITCH: a pending revision comes into force (R368). -/
def Chip.placementSwitch (c : Chip) (l : Nat) : Chip :=
  match c.layer false l, c.image.layerRecs[l]? with
  | some x, some r =>
    match x.pending with
    | some p =>
      if c.dev.ticking && x.dueSwitch then
        let seats := x.seats.zipIdx.map fun s => match p.getD s.2 none with
          | some e => if c.valeOut (r.seat s.2).vale then none else some e
          | none => s.1
        let banks := x.banks.zipIdx.map fun b => if (p.getD b.2 none).isSome then !b.1 else b.1
        c.setLayer false l { x with seats := seats, banks := banks, pending := none, copied := [], switched := true,
                                    dueSwitch := false, version := (x.version + 1) % 256 }
      else c
    | none => c
  | _, _ => c

/-- PLACEMENT_SWITCH. -/
def execPlacementSwitch (l : Nat) (s : State) : Host.Outcome State Fault Refusal :=
  act (.placementSwitch l) (fun _ c => c.placementSwitch l) s

/-- One layer at a tick edge: counts are shown and cleared, seats of fenced Vales lose their experts, what falls due is
set (R355, R364, R368 to R370). -/
def Chip.layerEdge (c : Chip) (l : Nat) (r : LayerRec) (x : Layer) : Layer :=
  let frozen := c.layerFrozen r
  let gone (s : Nat) : Bool := c.valeOut (r.seat s).vale
  let seats := x.seats.zipIdx.map fun s => if gone s.2 then none else s.1
  let pend := if frozen then none else x.pending
  let due := match c.image.policies.find? fun p => p.layer == l with
    | some p => decide (0 < x.age) && x.age % max 1 p.period == 0
    | none => false
  let y := { x with
    lastDemand := x.demand, lastAccepted := x.accepted, demand := [], accepted := [], lastRouted := x.routed,
    lastDropped := x.dropped, routed := 0, dropped := 0, prevSeats := x.seats, prevBanks := x.banks, seats := seats,
    pending := pend, copied := if frozen then [] else x.copied, fills := [], switched := false, dueDecision := due,
    age := x.age + 1 }
  { y with dueSwitch := y.copiedAll r }

/-- Every layer of the image in force at a tick edge. -/
def Chip.expertsEdge (c : Chip) : Chip :=
  { c with layers := (c.layers.zip c.image.layerRecs).zipIdx.map fun e => c.layerEdge e.2 e.1.2 e.1.1 }

end Sys2Proof.Machine
end

