-- ==== Sys2Proof/Machine/Islands.lean ====
section
/-!
DEFINITION. Machine/Islands.lean: the Vales' islands and clocks: the safe-voltage table (R645), the clock that VDDL allows
(R320, R646), how an island's level moves (R388), and a unit's replay budget (R383).
-/
namespace Sys2Proof.Machine

/-! ### Voltages and clocks -/

/-- Measured VDDL, in mV. -/
def Chip.vddl (c : Chip) : Nat := (c.supply.rails.getD 3 (Rail.nominal 750)).mv

/-- Island of Vale `n`. -/
def Chip.island (c : Chip) (n : Nat) : Island := c.islands.getD n Island.fresh

/-- Put an island in place. -/
def Chip.setIsland (c : Chip) (n : Nat) (x : Island) : Chip := { c with islands := c.islands.set n x }

/-- SAFE_MV at a clock: between two points by linear interpolation, rounded up (R645); below 200 MHz the first point
(log entry 5). -/
def Island.safeAt (x : Island) (mhz : Nat) : Nat :=
  let f := max 200 (min 1000 mhz)
  let i := min 3 ((f - 200) / 200)
  let lo := x.points.getD i 0
  let hi := x.points.getD (i + 1) 0
  let k := f - 200 - 200 * i
  if lo ≤ hi then lo + ((hi - lo) * k + 199) / 200 else lo - (lo - hi) * k / 200

/-- The highest clock that a VDDL allows: a multiple of 25 MHz from 200 to 1 000 (R646). -/
def Island.topClock (x : Island) (vddl : Nat) : Nat :=
  ((List.range 33).map fun i => 1000 - 25 * i).find? (fun f => decide (x.safeAt f + 30 ≤ vddl)) |>.getD 200

/-- A clock rounded up to a multiple of 25 MHz. -/
def roundClock (mhz : Nat) : Nat := (mhz + 24) / 25 * 25

/-- SAFE_MV of Vale `n` at its clock in force (R321). -/
def Chip.safeMv (c : Chip) (n : Nat) : Nat := (c.island n).safeAt (c.fld (F.VALE_CLK.ACT_MHZ.vale n))

/-- The island's level at an instant: it rises at 10 mV/µs and falls at 2 mV/µs (R388). -/
def Island.level (x : Island) (now : Nat) : Nat :=
  if x.startMv ≤ x.goal then min x.goal (x.startMv + (now - x.since) / 100)
  else max x.goal (x.startMv - (now - x.since) / 500)

/-- The island's level now, never above its ceiling (R39). -/
def Chip.islandMv (c : Chip) (n : Nat) : Nat := min ((c.island n).level c.now) (c.vddl - 30)

/-- The island is at SAFE_MV or above. -/
def Chip.atSafe (c : Chip) (n : Nat) : Bool := decide (c.safeMv n ≤ c.islandMv n)

/-- From now on the island moves toward a level, from where it stands. -/
def Chip.steer (c : Chip) (n goal : Nat) : Chip :=
  c.setIsland n { c.island n with startMv := c.islandMv n, since := c.now, goal := goal }

/-- The Saddle's island: at least 30 mV below VDDL (R39); how far below the spec leaves open, and no register shows it. -/
def Chip.saddleMv (c : Chip) : Nat := c.vddl - 30 - (Config.saddleDrop c.vddl).toNat

/-- The Saddle's clock, at every VDDL in its range (R39). -/
abbrev saddleMhz : Nat := 800

/-- The island rises toward SAFE_MV at once. -/
def Chip.raiseIsland (c : Chip) (n : Nat) : Chip :=
  let c := c.setIsland n { c.island n with target := max (c.island n).target (c.safeMv n) }
  if (c.island n).goal < c.safeMv n then c.steer n (c.safeMv n) else c

/-! ### Declared clocks -/

/-- REQ_MHZ as a write is handled: rounded up, raised to the declared minimum, lowered to 1 000 (R320). The limit that VDDL
sets applies at every tick edge (R646). -/
def Chip.requestedMhz (c : Chip) (n mhz : Nat) : Nat :=
  min 1000 (max (max 200 (roundClock mhz)) (roundClock (c.table.mhz n)))

/-- The table coming into force declares the clocks (R320): REQ_MHZ takes its value, and an unused Vale's clock stops. -/
def Chip.declareClocks (c : Chip) (t : Table) : Chip :=
  (List.range 6).foldl (fun c n =>
    if t.mhz n = 0 then (c.set (F.VALE_CLK.REQ_MHZ.vale n) 0).set (F.VALE_CLK.ACT_MHZ.vale n) 0
    else c.set (F.VALE_CLK.REQ_MHZ.vale n) (min 1000 (roundClock (t.mhz n)))) c

/-- ACT_MHZ for the tick that begins, under a table (R320, R646). -/
def Chip.actMhz (c : Chip) (t : Table) (n : Nat) : Nat :=
  if t.mhz n = 0 then 0
  else min (max (roundClock (c.live (F.VALE_CLK.REQ_MHZ.vale n))) (roundClock (t.mhz n))) (min 1000 ((c.island n).topClock c.vddl))

/-! ### Replay budgets (R383) -/

/-- B_unit of an entry on Vale `n`: floor(REPLAY · t_slot_min · ACT_MHZ), with t_slot_min of R104. -/
def Chip.replayBudget (c : Chip) (n : Nat) (slaved : Bool) (rate replay : Nat) : Nat :=
  replay * slotCycles rate * c.fld (F.VALE_CLK.ACT_MHZ.vale n) * 100 * (if slaved then 995 else 1000) / 12288000

/-- B_unit of the unit in progress on Vale `n`. -/
def Chip.unitBudget (c : Chip) (n : Nat) (u : UnitRun) : Nat :=
  match c.entryOf u with
  | none => 0
  | some e => c.replayBudget n (c.bit F.TICK_STATUS.SLAVED) c.rate e.replay

/-- Waves replayed, U_N and B_N of the interval in progress become those shown (R403). -/
def Chip.showInterval (c : Chip) (n : Nat) : Chip :=
  let x := c.island n
  let top := 0xFFFFFFFF
  let c := (c.set (F.APX_REPLAY_WAVES.COUNT.vale n) (min top x.waves)).set (F.APX_REPLAY_CYCLES.COUNT.vale n) (min top x.used)
  (c.set (F.APX_BUDGET.COUNT.vale n) (min top x.budget)).setIsland n
    { x with waves := 0, used := 0, budget := 0, started := false, exhausted := false }

/-! ### Registers -/

/-- VALE_VOLT of Vale `n` as it reads: 0 for a Vale whose PLL never locked, and the word kept since the fence (R665). -/
def Chip.valeVoltWord (c : Chip) (n : Nat) : Word :=
  if c.fenced n then c.word (A.VALE_VOLT + 0x1000 * n)
  else Word.of (c.safeMv n * 65536 + c.islandMv n)

/-- The islands run: SELFTEST has set their points (R645). -/
def DevState.islandsRun : DevState → Bool
  | .load | .hold | .run | .degraded | .faultStop => true
  | _ => false

/-- APX_VSTATE of Vale `n` as it reads. -/
def Chip.apxStateWord (c : Chip) (n : Nat) : Word :=
  if c.fenced n || !c.dev.islandsRun then c.word (A.APX_VSTATE + 0x1000 * n)
  else
    let x := c.island n
    let held := if x.holdReplay ≠ 0 then 2 else if x.held = 2 ∨ x.held = 3 then x.held
      else if x.holdExact ≠ 0 then 1 else x.held
    Word.of (held * 0x40000000 + x.quiet % 16 * 0x4000000 + x.offset % 32 * 0x200000 + (c.atSafe n).toNat * 0x100000 +
      x.target % 1024 * 0x400)

/-- A Vale's island registers take the words they keep from its fence on. -/
def Chip.keepVoltage (c : Chip) (n : Nat) : Chip :=
  let v := c.valeVoltWord n
  let w := c.apxStateWord n
  (c.put (A.VALE_VOLT + 0x1000 * n) v).put (A.APX_VSTATE + 0x1000 * n) w

end Sys2Proof.Machine
end

