-- ==== Sys2Proof/Machine/Plan.lean ====
section
/-!
DEFINITION. Machine/Plan.lean: the entries of the tick in progress (R95, R146, R192), and how a unit stops or is not run
(R98, R618, R621, R623, R631).
-/
namespace Sys2Proof.Machine

/-- An entry as a tick runs it: in the swap tick the old image's entries carry their index + 8 192 (R192). -/
structure Slotted where
  id : Nat
  old : Bool
  e : Entry
  deriving DecidableEq, Repr

/-- Entries with their identities. -/
def slotted (base : Nat) (old : Bool) (es : List Entry) : List Slotted :=
  es.zipIdx.map fun x => ⟨base + x.2, old, x.1⟩

/-- The tick in progress is tick 0 of an entry to RUN (R95). -/
def Chip.tickZero (c : Chip) : Bool := c.fld F.TICK_FRAME.FRAME == 0 && c.egress.wraps == 0

/-- The entries that the tick in progress has. -/
def Chip.plan (c : Chip) : List Slotted :=
  let new := slotted 0 false c.table.entries
  let all :=
    if c.sched.swapTick then
      let spill := match c.loader.old with
        | none => []
        | some im => slotted 8192 true (c.tableOf im).entries
      (new.filter fun s => s.e.frameOfs == 0) ++ spill.filter fun s => s.e.frameOfs == 1
    else new
  all.filter fun s => if c.sched.drain then s.e.frameOfs == 1 else s.e.frameOfs == 0 || !c.tickZero

/-- The entry with an identity. -/
def Chip.planned (c : Chip) (id : Nat) : Option Slotted := c.plan.find? fun s => s.id == id

/-- The unit of an entry. -/
def Chip.planUnit (c : Chip) (s : Slotted) : Option UnitRec := (c.wiring s.old).unit s.e.lane s.e.unitId

/-- Mark the records of an entry's network in the frame that it serves. -/
def Chip.markPlanned (c : Chip) (s : Slotted) (bit : Nat) : Chip :=
  match c.planUnit s with
  | none => c
  | some u => c.markNetwork (c.runFrame s.e.frameOfs) u.network bit

/-- An entry's unit has ended, or will not run: `marred` when its outputs are not whole (R96, R98). -/
def Chip.entryDone (c : Chip) (id : Nat) (marred : Bool) : Chip :=
  { c with sched := { c.sched with done := id :: c.sched.done,
                                   marred := if marred then id :: c.sched.marred else c.sched.marred } }

/-- A unit that does not run in this tick: the mark its records take, and successors no longer wait for it. -/
def Chip.notRun (c : Chip) (s : Slotted) (bit : Nat) : Chip :=
  if s.e.lane = 9 then c else (c.markPlanned s bit).entryDone s.id true

/-- The lane has no unit in progress any more. -/
def Chip.clearLane (c : Chip) (lane : Nat) : Chip :=
  let c := { c with sched := { c.sched with lanes := c.sched.lanes.filter fun e : Nat × UnitRun => e.1 != lane } }
  laneIdle { c with fabric := { c.fabric with stalled := c.fabric.stalled.filter fun p => p.lane != lane } } lane

/-- The unit in progress on a lane stops; its records carry INCOMPLETE (R98, R618). -/
def Chip.stopUnit (c : Chip) (lane : Nat) : Chip :=
  match c.laneRun lane with
  | none => c
  | some u =>
    let c := c.stopInPass lane
    let c := match (c.wiring u.old).unit (laneCode lane) u.unit with
      | none => c
      | some r => c.markNetwork (c.runFrame u.ofs) r.network 1
    (c.entryDone u.entry true).clearLane lane

/-- Entries of a lane still to start in the tick in progress. -/
def Chip.stillToStart (c : Chip) (lane : Nat) : List Slotted :=
  if c.dev.ticking && !c.sched.starting then
    c.plan.filter fun s => s.e.lane == laneCode lane && !c.sched.done.contains s.id &&
      !(c.sched.lanes.any fun r : Nat × UnitRun => r.2.entry == s.id)
  else []

/-- The lane's unit in progress is stopped and its later units of the tick do not run: how many, and the chip. -/
def Chip.cutLane (c : Chip) (lane : Nat) : Nat × Chip :=
  let n := if (c.laneRun lane).isSome then 1 else 0
  let c := c.stopUnit lane
  let later := c.stillToStart lane
  (n + later.length, later.foldl (fun c s => c.notRun s 1) c)

end Sys2Proof.Machine
end

