-- ==== Sys2Proof/Machine/Recovery.lean ====
section
/-!
DEFINITION. Machine/Recovery.lean: fencing a Vale (R617 to R622), the partial reset of a Mover (R623, R624), recovery events
(R625), the host's writes to the FAULT block (R611, R616, R633) and to a few counters beside it (R111, R376, R323).
-/
namespace Sys2Proof.Machine

/-! ### Recovery events (R625, R626) -/

/-- One record for events of both: the latest event is `b`'s. -/
def Recovery.join (a b : Recovery) : Recovery :=
  { b with stopped := a.stopped + b.stopped, aborts := a.aborts + b.aborts, discarded := a.discarded + b.discarded,
           lost := a.lost + b.lost, frozen := a.frozen + b.frozen, events := min 255 (a.events + b.events) }

/-- A recovery event: it joins the events of its nanosecond whose recovery point is still to come, or stands by itself till then. -/
def Chip.recoveryEvent (c : Chip) (cause unit logIndex : Nat) : Chip :=
  let c := c.count F.FLT_RECOVERY.COUNT 1
  let fresh : Recovery :=
    { cause := cause, unit := unit, eventFrame := c.fld F.TICK_FRAME.FRAME, logIndex := logIndex, stopped := 0, aborts := 0,
      discarded := 0, lost := 0, frozen := 0, events := 1, time := c.now, point := none }
  let rs := c.egress.recovery
  let joins := rs.getLast?.any fun r : Recovery => r.point.isNone && r.time == c.now
  { c with egress := { c.egress with
      recovery := if joins then rs.dropLast ++ [(rs.getLast?.getD fresh).join fresh] else rs ++ [fresh] } }

/-- LOG_INDEX of the newest entry of the fault ring. -/
def Chip.newestIndex (c : Chip) : Nat := match c.faults with | e :: _ => e.index | [] => 0

/-! ### Fencing a Vale -/

/-- FLT_VALE_CAUSE's field of a Vale. -/
def causeField (n : Nat) : Fld := { F.FLT_VALE_CAUSE.CAUSE_0 with lo := 4 * n }

/-- Vale `n` is fenced for a cause of R617; Vales fenced in one cycle count in ascending order (R621). -/
def Chip.fence (c : Chip) (n cause : Nat) : Chip :=
  if c.fenced n then c
  else
    let c := c.alert Code.VALE_FENCED n cause
    let c := c.recoveryEvent 1 n c.newestIndex
    let (stopped, c) := c.cutLane n
    let c := c.recoverCount fun r => { r with stopped := r.stopped + stopped }
    let c := (c.keepVoltage n).raise (F.VALE_STATUS.FENCED.vale n)
    let c := c.set F.DEV_STATE.DEGRADE (c.fld F.DEV_STATE.DEGRADE ||| 1)
    let c := c.set F.VALE_MASK.RUNNING (c.fld F.VALE_MASK.RUNNING &&& (63 - 2 ^ n))
    let c := c.set (causeField n) cause
    let last := if c.sched.fencedAt = c.now then c.sched.fencedLast else []
    let together := (List.range 6).filter fun v => v == n || last.contains v
    let order := (c.sched.fenceOrder.filter fun v => !last.contains v) ++ together
    let c := { c with sched := { c.sched with fenceOrder := order, fencedLast := together, fencedAt := c.now } }
    let c := c.setIsland n { Island.fresh with points := (c.island n).points }
    (c.partReset n).2

/-- Writes of the FAULT block act in these states (R141). -/
def DevState.faultWrites : DevState → Bool
  | .hold | .run | .degraded | .faultStop => true
  | _ => false

/-- A write of FLT_CTRL with FENCE (R617); another key, or a state that R617 excludes, records 0x0006 (R633, log entry 20). -/
def Chip.fenceWrite (c : Chip) (key vale : Nat) : Chip :=
  if c.dev.portsAnswer then
    if key ≠ 0x464C ∨ c.dev.open = false then c.reject
    else if vale < 6 then c.fence vale 5 else c
  else c

/-- FENCE. -/
def execFence (key vale : Nat) (s : State) : Host.Outcome State Fault Refusal :=
  act (.fence key vale) (fun _ c => c.fenceWrite key vale) s

/-! ### Partial reset of a Mover -/

/-- Mover `m` is in partial reset. -/
def Chip.moverDown (c : Chip) (m : Nat) : Bool := c.laneDown (m + 7)

/-- MOVER_RESET: a write of FLT_CTRL.MOVER_RESET (R623, R633). -/
def Chip.moverReset (c : Chip) (key m : Nat) : Chip :=
  if c.dev.portsAnswer then
    if key ≠ 0x464C ∨ c.dev.open = false then c.reject
    else if c.moverDown m then c
    else
      let c := c.alert Code.MOVER_RESET m 0
      let c := c.recoveryEvent 2 m c.newestIndex
      let (stopped, c) := c.cutLane (m + 7)
      let c := c.recoverCount fun r => { r with stopped := r.stopped + stopped }
      let (fs, c) := c.partReset (m + 7)
      let c := { c with fabric := { c.fabric with frozenBy := c.fabric.frozenBy ++ fs.map fun q => (q, m) } }
      { c with fabric := { c.fabric with resetAt := (c.fabric.resetAt.filter fun e : Nat × Nat => e.1 != m) ++ [(m, c.now)] } }
  else c

/-- MOVER_RESET. -/
def execMoverReset (key m : Nat) (s : State) : Host.Outcome State Fault Refusal :=
  act (.moverReset key m) (fun _ c => c.moverReset key m) s

/-- A queue that the reset froze becomes ACTIVE again. -/
def Chip.qThaw (c : Chip) (q : Nat) : Chip :=
  match c.qOpen q with
  | (none, c) => c
  | (some d, c) => if QDesc.state d = 2 then c.qWrite q 0 1 1 else c

/-- A Mover's return falls due: a tick edge has come at least 2 µs after its reset. -/
def Chip.moverDue (c : Chip) (m : Nat) : Bool :=
  c.dev.ticking && !c.sched.starting && c.fabric.resetAt.any fun e : Nat × Nat => e.1 == m && decide (e.2 + 2000 ≤ c.sched.edgeNow)

/-- MOVER_RETURN: the partial reset ends, and the queues that it froze thaw (R624). -/
def Chip.moverReturn (c : Chip) (m : Nat) : Chip :=
  if c.moverDown m && c.moverDue m then
    let mine := (c.fabric.frozenBy.filter fun f : Nat × Nat => f.2 == m).map fun f : Nat × Nat => f.1
    let c := { c with fabric := { c.fabric with
        down := c.fabric.down.filter fun l => l != m + 7
        frozenBy := c.fabric.frozenBy.filter fun f : Nat × Nat => f.2 != m
        resetAt := c.fabric.resetAt.filter fun e : Nat × Nat => e.1 != m } }
    (mine.foldl Chip.qThaw c).showRunning
  else c

/-- MOVER_RETURN. -/
def execMoverReturn (m : Nat) (s : State) : Host.Outcome State Fault Refusal :=
  act (.moverReturn m) (fun _ c => c.moverReturn m) s

/-! ### Host writes to the FAULT block -/

/-- FLT_ACTIVE_CLEAR: written ones clear group bits, except those of groups whose recording arrives in the same cycle (R611). -/
def Chip.fltActiveClear (c : Chip) (bits recording : Nat) : Chip :=
  if c.dev.faultWrites then
    let gone := (List.range 18).foldl (fun b g => if bits.testBit g && !recording.testBit g then b + 2 ^ g else b) 0
    c.put A.FLT_ACTIVE (c.word A.FLT_ACTIVE &&& ~~~(Word.of gone))
  else c

/-- FLT_ACTIVE_CLEAR. -/
def execFltActiveClear (bits recording : Nat) (s : State) : Host.Outcome State Fault Refusal :=
  act (.fltActiveClear bits recording) (fun _ c => c.fltActiveClear bits recording) s

/-- FLT_STOP.CLR (R616). -/
def Chip.fltStopClr (c : Chip) : Chip := if c.dev.faultWrites then c.set F.FLT_STOP.CODE 0 else c

/-- FLT_STOP_CLR. -/
def execFltStopClr (s : State) : Host.Outcome State Fault Refusal := act .fltStopClr (fun _ c => c.fltStopClr) s

/-- FLT_FIRST.CLR (R609). -/
def Chip.fltFirstClr (c : Chip) : Chip := if c.dev.faultWrites then c.set F.FLT_FIRST.CODE 0 else c

/-- FLT_FIRST_CLR. -/
def execFltFirstClr (s : State) : Host.Outcome State Fault Refusal := act .fltFirstClr (fun _ c => c.fltFirstClr) s

/-! ### Clears beside it -/

/-- OVERRUN_LOG.CLR (R111). -/
def Chip.overrunLogClr (c : Chip) : Chip :=
  if c.dev.open then (c.set F.OVERRUN_LOG.COUNT 0).set F.OVERRUN_LOG.ENTRY 0xFFFF else c

/-- OVERRUN_LOG_CLR. -/
def execOverrunLogClr (s : State) : Host.Outcome State Fault Refusal := act .overrunLogClr (fun _ c => c.overrunLogClr) s

/-- RT_CTRL.CLR_COUNTS clears LOOP_STATUS of the RT block (R376). -/
def Chip.rtClrCounts (c : Chip) : Chip := if c.dev.open then c.put A.LOOPCOUNT_STATUS 0 else c

/-- RT_CLR_COUNTS. -/
def execRtClrCounts (s : State) : Host.Outcome State Fault Refusal := act .rtClrCounts (fun _ c => c.rtClrCounts) s

/-- CLR_PEAK of VALE_EVENTS, or of SAD_EVENTS for lane 6 (R323, R348); a fenced Vale ignores it. -/
def Chip.clrPeak (c : Chip) (lane : Nat) : Chip :=
  if c.dev.open = false then c
  else if lane < 6 then
    if c.fenced lane then c else c.set (F.VALE_CYCLES_PEAK.CYCLES.vale lane) 0
  else c.set F.SAD_CYCLES_PEAK.CYCLES 0

/-- CLR_PEAK. -/
def execClrPeak (lane : Nat) (s : State) : Host.Outcome State Fault Refusal :=
  act (.clrPeak lane) (fun _ c => c.clrPeak lane) s

end Sys2Proof.Machine
end

