-- ==== Sys2Proof/Machine/Approx.lean ====
section
/-!
DEFINITION. Machine/Approx.lean: replay (R379 to R385), the voltage controller (R386 to R389), EXACT mode (R396 to R398) and
the Vales' clocks (R320, R646).
-/
namespace Sys2Proof.Machine

/-! ### Holds at the safe voltage -/

/-- The island is held at SAFE_MV until the first tick edge after the next evaluation point (R384). -/
def Chip.holdForReplay (c : Chip) (n : Nat) : Chip :=
  (c.setIsland n { c.island n with holdReplay := 1 }).raiseIsland n

/-- The same for an EXACT unit (R398). -/
def Chip.holdForExact (c : Chip) (n : Nat) : Chip :=
  (c.setIsland n { c.island n with holdExact := 1 }).raiseIsland n

/-! ### Replay -/

/-- The unit in progress has used up its budget: at the first time, what R384 lists. -/
def Chip.exhaust (c : Chip) (n : Nat) (u : UnitRun) : Chip :=
  if u.told.testBit 3 then c
  else
    let c := (c.setIsland n { c.island n with exhausted := true }).holdForReplay n
    let c := (c.raise (F.APX_EVENTS.EXHAUST.vale n)).set (F.APX_EXHAUST_LOG.ENTRY.vale n) (u.entry % 8192)
    (c.alert Code.REPLAY_EXHAUST n 0).setRun n { u with told := u.told ||| 8 }

/-- Replay cycles, or a hold, draw on the budget of the unit in progress (R383, R384). -/
def Chip.chargeReplay (c : Chip) (n cost : Nat) : Chip :=
  match c.laneRun n with
  | none => c
  | some u =>
    let u := { u with replayed := u.replayed + cost }
    let c := (c.setRun n u).setIsland n { c.island n with used := (c.island n).used + cost }
    let budget := c.unitBudget n u
    if budget ≤ u.replayed then
      let c := c.exhaust n u
      let excess := u.replayed - budget
      (c.setIsland n { c.island n with overdraw := excess }).set (F.APX_EXHAUST_LOG.OVERDRAW.vale n) (min 0xFFFF (excess / 16))
    else c

/-- A wave is replayed once more: consecutive replays of one wave count apart below SAFE_MV and at SAFE_MV (R381, R382). -/
def Replay.again (r : Replay) (wave : Nat) (safe : Bool) (ends : Nat) : Replay :=
  let before (k : Nat) : Nat := if r.wave = wave then k else 0
  if safe then ⟨wave, 0, before r.high + 1, ends⟩ else ⟨wave, before r.low + 1, 0, ends⟩

/-- WAVE_REPLAY: a sentinel report; a wave of the pass in progress, named by its number in the pass and its length in cycles, runs again,
at its length and 4 restart cycles (R379). -/
def Chip.waveReplay (c : Chip) (n : Nat) (wave : Nat × Nat) : Chip :=
  match c.begun n with
  | none => c
  | some (u, _, _) =>
    if u.waiting then c
    else
      let cost := wave.2 + 4
      let ends := c.now + max 1 (cost * 1000 / c.fld (F.VALE_CLK.ACT_MHZ.vale n))
      let c := c.setRun n { u with replay := u.replay.again wave.1 (c.atSafe n) ends }
      (c.setIsland n { c.island n with waves := (c.island n).waves + 1 }).chargeReplay n cost

/-- WAVE_REPLAY. -/
def execWaveReplay (vale : Nat) (wave : Nat × Nat) (s : State) : Host.Outcome State Fault Refusal :=
  act (.waveReplay vale wave) (fun _ c => c.waveReplay vale wave) s

/-- REPLAY_STORM: the fourth consecutive replay of one wave below SAFE_MV (R381). -/
def Chip.replayStorm (c : Chip) (n : Nat) : Chip :=
  match c.laneRun n with
  | some u => if 4 ≤ u.replay.low then (c.raise (F.APX_EVENTS.STORM.vale n)).holdForReplay n else c
  | none => c

/-- REPLAY_STORM. -/
def execReplayStorm (vale : Nat) (s : State) : Host.Outcome State Fault Refusal :=
  act (.replayStorm vale) (fun _ c => c.replayStorm vale) s

/-- REPLAY_STUCK: the sixteenth consecutive replay of one wave at SAFE_MV (R382). -/
def Chip.replayStuck (c : Chip) (n : Nat) : Chip :=
  match c.laneRun n with
  | some u =>
    if 16 ≤ u.replay.high then
      ((c.raise (F.APX_EVENTS.STUCK.vale n)).alert Code.REPLAY_STUCK n 0).fence n 3
    else c
  | none => c

/-- REPLAY_STUCK. -/
def execReplayStuck (vale : Nat) (s : State) : Host.Outcome State Fault Refusal :=
  act (.replayStuck vale) (fun _ c => c.replayStuck vale) s

/-! ### EXACT mode -/

/-- The image that the next tick runs, as it stands now: a hot image waits, and SWAP_ARM is written (R192). -/
def Chip.nextImage (c : Chip) : Image :=
  match c.loader.hot with
  | some im => if c.bit F.IMG_CTRL.SWAP_ARM then im else c.image
  | none => c.image

/-- The table that an image would have in force at an edge now (R621). -/
def Chip.tableAtEdge (c : Chip) (im : Image) : Table :=
  match c.sched.fenceOrder.head? with
  | some n => (im.fallback n).getD im.primary
  | none => im.primary

/-- Entries of the next tick with the image that holds their units (R95, R146, R192). -/
def Chip.nextEntries (c : Chip) : List (Image × Entry) :=
  let next := c.nextImage
  let own := ((c.tableAtEdge next).entries.filter fun e => e.frameOfs == 0).map fun e => (next, e)
  let spill := ((c.tableAtEdge c.image).entries.filter fun e => e.frameOfs == 1).map fun e => (c.image, e)
  if c.bit F.DEV_STATE.STOPPING then spill else own ++ spill

/-- The next tick is an EXACT tick for Vale `n` (R397). -/
def Chip.exactTick (c : Chip) (n : Nat) : Bool :=
  c.nextEntries.any fun x =>
    x.2.lane == n + 1 && ((x.1.unit x.2.lane x.2.unitId).any fun r => c.unitExact true r x.2)

/-! ### The controller -/

/-- OFFSET and QUIET after an interval (R386). -/
def Chip.controller (c : Chip) (n : Nat) (x : Island) : Nat × Nat :=
  let most := min 30 (c.live (F.APX_VCFG.OS_MAX.vale n))
  let lo := x.budget * c.live (F.APX_VCFG.LO.vale n) / 256
  let r :=
    if x.started = false then (x.offset, x.quiet)
    else if x.exhausted then (x.offset - c.live (F.APX_VCFG.BACKOFF.vale n), 0)
    else if x.budget * c.live (F.APX_VCFG.HI.vale n) / 256 < x.used then (x.offset - 1, 0)
    else if x.used ≤ lo ∧ x.quiet + 1 = max 1 (c.live (F.APX_VCFG.DOWN_TICKS.vale n)) then (min most (x.offset + 1), 0)
    else if x.used ≤ lo then (x.offset, x.quiet + 1)
    else (x.offset, 0)
  if most < r.1 then (most, 0) else r

/-- Over-scaling is off: by APX_CTRL as read here, or while VDDL_LOW holds (R387). -/
def Chip.overscaleOff (c : Chip) (pending : Bool) : Bool :=
  (if pending then c.fld F.APX_CTRL.OVERSCALE else c.live F.APX_CTRL.OVERSCALE) == 0 || c.supply.vddlLow

/-- A target with a reason to stay at the safe voltage, or without (R387). -/
def islandTarget (held safe offset : Nat) : Nat := if held = 0 then max 500 (safe - 5 * offset) else safe

/-- The clock of the tick after this one, as the registers and the arming stand now (R192, R320, R646). -/
def Chip.nextMhz (c : Chip) (n : Nat) : Nat :=
  let t := c.tableAtEdge c.nextImage
  let swap := c.loader.hot.isSome && c.bit F.IMG_CTRL.SWAP_ARM
  if t.mhz n = 0 then 0
  else
    let req := if swap then 0 else roundClock (c.fld (F.VALE_CLK.REQ_MHZ.vale n))
    min (max req (roundClock (t.mhz n))) (min 1000 ((c.island n).topClock c.vddl))

/-- The evaluation of one Vale's controller (R386 to R388). Over-scaling that is off now may be on again at the edge, which looks again;
an EXACT tick and a hold are settled here. -/
def Chip.evaluateVale (c : Chip) (n : Nat) : Chip :=
  if c.fenced n || (c.island n).next.isSome then c
  else
    let r := c.controller n (c.island n)
    let c := c.showInterval n
    let x := c.island n
    let held := if x.holdReplay ≠ 0 then 2 else if c.exactTick n then 1 else 0
    let target := islandTarget (if c.overscaleOff true then 3 else held) (x.safeAt (c.nextMhz n)) r.1
    let x := { x with offset := r.1, quiet := r.2, next := some target, nextHeld := held,
                      holdReplay := if x.holdReplay = 0 then 0 else 2, holdExact := if x.holdExact = 0 then 0 else 2 }
    let c := c.setIsland n x
    if x.goal < target then c.steer n target else c

/-- VOLTAGE_EVALUATION: at the start of slot 4 064, once a tick. -/
def Chip.voltageEvaluation (c : Chip) : Chip :=
  if c.dev.ticking ∧ c.sched.starting = false ∧ c.fld F.TICK_STATUS.SLOT = 4064 then
    (List.range 6).foldl Chip.evaluateVale c
  else c

/-- VOLTAGE_EVALUATION. -/
def execVoltageEvaluation (s : State) : Host.Outcome State Fault Refusal :=
  act .voltageEvaluation (fun _ c => c.voltageEvaluation) s

/-- One island at a tick edge: the clock in force, and the target of the tick (R320, R387, R388, R646). -/
def Chip.islandEdge (first : Bool) (t : Table) (c : Chip) (n : Nat) : Chip :=
  if c.fenced n then c
  else
    let c := c.set (F.VALE_CLK.ACT_MHZ.vale n) (c.actMhz t n)
    let x := c.island n
    let hr := if x.holdReplay = 2 then 0 else x.holdReplay
    let he := if x.holdExact = 2 then 0 else x.holdExact
    let decided := if first then 0 else x.nextHeld
    let code := if decided ≠ 2 ∧ c.overscaleOff false then 3 else decided
    let held := if code ≠ 0 then code else if hr ≠ 0 then 2 else he
    let safe := c.safeMv n
    let target := islandTarget held safe x.offset
    let x := { x with startMv := if first then safe else x.level c.now, since := c.now, goal := target, target := target,
                      held := code, next := none, nextHeld := 0, holdReplay := hr, holdExact := he }
    c.setIsland n x

/-- Every island at a tick edge. -/
def Chip.islandsEdge (c : Chip) (first : Bool) (t : Table) : Chip :=
  (List.range 6).foldl (Chip.islandEdge first t) (c.put A.APX_STATUS (c.force.word A.APX_CTRL))

/-- Entry to RUN: OFFSET and QUIET are 0, every island starts at SAFE_MV, and an interval begins (R389). -/
def Chip.islandsEnterRun (c : Chip) : Chip :=
  (List.range 6).foldl (fun c n =>
    if c.fenced n then c
    else
      let safe := c.safeMv n
      c.setIsland n { Island.fresh with points := (c.island n).points, startMv := safe, since := c.now, goal := safe,
                                        target := safe }) c

/-- ISLAND_AT_SAFE_MV: the island raised for an EXACT unit has arrived, and the held unit begins its first wave; the hold
draws on its budget (R398). -/
def Chip.islandArrived (c : Chip) (n : Nat) : Chip :=
  match c.laneRun n with
  | some u =>
    if u.waiting && c.atSafe n then
      let ns := c.now - u.began
      let cost := (ns * c.fld (F.VALE_CLK.ACT_MHZ.vale n) + 999) / 1000
      let c := c.setRun n { u with waiting := false }
      if cost = 0 then c else c.chargeReplay n cost
    else c
  | none => c

/-- ISLAND_AT_SAFE_MV. -/
def execIslandAtSafeMv (vale : Nat) (s : State) : Host.Outcome State Fault Refusal :=
  act (.islandAtSafeMv vale) (fun _ c => c.islandArrived vale) s

/-! ### Clocks -/

/-- REQ_MHZ_WRITE (R320): ignored by a fenced Vale and by one that the table in force does not use. -/
def Chip.reqMhzWrite (c : Chip) (n mhz : Nat) : Chip :=
  if c.dev.open && !c.fenced n && (c.loader.image.isNone || c.table.mhz n != 0) then
    c.set (F.VALE_CLK.REQ_MHZ.vale n) (c.requestedMhz n mhz)
  else c

/-- REQ_MHZ_WRITE. -/
def execReqMhzWrite (vale mhz : Nat) (s : State) : Host.Outcome State Fault Refusal :=
  act (.reqMhzWrite vale mhz) (fun _ c => c.accept (A.VALE_CLK + 0x1000 * vale) fun c => c.reqMhzWrite vale mhz) s

end Sys2Proof.Machine
end

