-- ==== Sys2Proof/Machine/Crypto.lean ====
section
/-!
DEFINITION. Machine/Crypto.lean: the cryptographic functions that the spec cites by their standards (R156, R175, R571):
SHA-256 (FIPS 180-4), HMAC and HKDF (RFC 2104, RFC 5869), AES-256 in GCM (FIPS 197, SP 800-38D), ECDSA on P-256
(FIPS 186-4). PRESUMED from those standards (log entry 9).
-/
namespace Sys2Proof.Machine.Crypto

/-! ### SHA-256 -/

/-- Rotate a word right. -/
def rotr (x : Word) (n : Nat) : Word := (x >>> n) ||| (x <<< (32 - n))

/-- Round constants. -/
def roundK : List Word := [
  0x428A2F98, 0x71374491, 0xB5C0FBCF, 0xE9B5DBA5, 0x3956C25B, 0x59F111F1, 0x923F82A4, 0xAB1C5ED5,
  0xD807AA98, 0x12835B01, 0x243185BE, 0x550C7DC3, 0x72BE5D74, 0x80DEB1FE, 0x9BDC06A7, 0xC19BF174,
  0xE49B69C1, 0xEFBE4786, 0x0FC19DC6, 0x240CA1CC, 0x2DE92C6F, 0x4A7484AA, 0x5CB0A9DC, 0x76F988DA,
  0x983E5152, 0xA831C66D, 0xB00327C8, 0xBF597FC7, 0xC6E00BF3, 0xD5A79147, 0x06CA6351, 0x14292967,
  0x27B70A85, 0x2E1B2138, 0x4D2C6DFC, 0x53380D13, 0x650A7354, 0x766A0ABB, 0x81C2C92E, 0x92722C85,
  0xA2BFE8A1, 0xA81A664B, 0xC24B8B70, 0xC76C51A3, 0xD192E819, 0xD6990624, 0xF40E3585, 0x106AA070,
  0x19A4C116, 0x1E376C08, 0x2748774C, 0x34B0BCB5, 0x391C0CB3, 0x4ED8AA4A, 0x5B9CCA4F, 0x682E6FF3,
  0x748F82EE, 0x78A5636F, 0x84C87814, 0x8CC70208, 0x90BEFFFA, 0xA4506CEB, 0xBEF9A3F7, 0xC67178F2]

/-- Initial hash value. -/
def hashInit : List Word := [
  0x6A09E667, 0xBB67AE85, 0x3C6EF372, 0xA54FF53A, 0x510E527F, 0x9B05688C, 0x1F83D9AB, 0x5BE0CD19]

/-- Padding to whole blocks of 64 bytes. -/
def shaPad (m : List Byte) : List Byte :=
  m ++ [0x80] ++ List.replicate ((119 - m.length % 64) % 64) 0 ++ beBytes 8 (8 * m.length)

/-- Big-endian words of a byte string. -/
def beWords : Nat → List Byte → List Word
  | 0, _ => []
  | n + 1, bs => Word.of (beNat (bs.take 4)) :: beWords n (bs.drop 4)

/-- One step of the message schedule, newest word first. -/
def scheduleStep (w : List Word) : List Word :=
  let x15 := w.getD 14 0
  let x2 := w.getD 1 0
  let s0 := rotr x15 7 ^^^ rotr x15 18 ^^^ (x15 >>> 3)
  let s1 := rotr x2 17 ^^^ rotr x2 19 ^^^ (x2 >>> 10)
  (w.getD 15 0 + s0 + w.getD 6 0 + s1) :: w

/-- Repeat a function. -/
def iterate {α : Type} (f : α → α) : Nat → α → α
  | 0, x => x
  | n + 1, x => iterate f n (f x)

/-- One round over the eight working words. -/
def shaRound (v : List Word) (kw : Word × Word) : List Word :=
  match v with
  | [a, b, c, d, e, f, g, h] =>
    let s1 := rotr e 6 ^^^ rotr e 11 ^^^ rotr e 25
    let ch := (e &&& f) ^^^ (~~~e &&& g)
    let t1 := h + s1 + ch + kw.1 + kw.2
    let s0 := rotr a 2 ^^^ rotr a 13 ^^^ rotr a 22
    let mj := (a &&& b) ^^^ (a &&& c) ^^^ (b &&& c)
    [t1 + (s0 + mj), a, b, c, d + t1, e, f, g]
  | v => v

/-- Compress one block into the hash value. -/
def shaBlock (h : List Word) (block : List Byte) : List Word :=
  let w := (iterate scheduleStep 48 (beWords 16 block).reverse).reverse
  let v := (roundK.zip w).foldl shaRound h
  List.zipWith (· + ·) h v

/-- Fold the blocks of a padded message. -/
def shaBlocks : Nat → List Word → List Byte → List Word
  | 0, h, _ => h
  | n + 1, h, bs => shaBlocks n (shaBlock h (bs.take 64)) (bs.drop 64)

/-- SHA-256 of a message. -/
def sha256 (m : List Byte) : List Byte :=
  let p := shaPad m
  (shaBlocks (p.length / 64) hashInit p).flatMap fun w => beBytes 4 w.toNat

/-- HMAC-SHA-256. -/
def hmac (key msg : List Byte) : List Byte :=
  let k := if 64 < key.length then sha256 key else key
  let k := k ++ List.replicate (64 - k.length) 0
  sha256 (k.map (· ^^^ 0x5C) ++ sha256 (k.map (· ^^^ 0x36) ++ msg))

/-- HKDF-SHA-256 with an output of one block, 32 bytes (RFC 5869). -/
def hkdf32 (ikm salt info : List Byte) : List Byte := hmac (hmac salt ikm) (info ++ [0x01])

/-! ### AES-256 -/

/-- Multiply by z in GF(2^8) over 0x11B. -/
def xtime (a : Byte) : Byte :=
  if a.toNat < 128 then Byte.of (2 * a.toNat) else Byte.of (Nat.xor (2 * a.toNat) 0x11B)

/-- Product in GF(2^8), by the bits of the second factor. -/
def gmul (a b : Byte) : Byte :=
  ((List.range 8).foldl (fun (s : Byte × Byte) i =>
    (if b.toNat.testBit i then s.1 ^^^ s.2 else s.1, xtime s.2)) (0, a)).1

/-- Square. -/
def gsq (a : Byte) : Byte := gmul a a

/-- Inverse in GF(2^8), 0 for 0: the 254th power. -/
def ginv (a : Byte) : Byte :=
  let p2 := gsq a
  let p3 := gmul p2 a
  let p12 := gsq (gsq p3)
  let p15 := gmul p12 p3
  let p240 := gsq (gsq (gsq (gsq p15)))
  gmul (gmul p240 p12) p2

/-- The S-box. -/
def sbox (a : Byte) : Byte :=
  let b := ginv a
  let rl (n : Nat) : Byte := (b <<< n) ||| (b >>> (8 - n))
  b ^^^ rl 1 ^^^ rl 2 ^^^ rl 3 ^^^ rl 4 ^^^ 0x63

/-- The S-box as a table. -/
def sboxTable : List Byte := (List.range 256).map fun i => sbox (Byte.of i)

/-- Substitute a byte. -/
def sub (t : List Byte) (a : Byte) : Byte := t.getD a.toNat 0

/-- Exclusive-or of byte strings. -/
def xorBytes (a b : List Byte) : List Byte := List.zipWith (· ^^^ ·) a b

/-- Key expansion, newest word first: word `i` of an AES-256 key from the words before it. -/
def expandStep (t : List Byte) (i : Nat) (ws : List (List Byte)) : List (List Byte) :=
  let prev := ws.getD 0 []
  let back := ws.getD 7 []
  let f :=
    if i % 8 = 0 then
      let r := (prev.drop 1 ++ prev.take 1).map (sub t)
      xorBytes r [iterate xtime (i / 8 - 1) 1, 0, 0, 0]
    else if i % 8 = 4 then prev.map (sub t)
    else prev
  xorBytes back f :: ws

/-- Words of four bytes. -/
def quads : Nat → List Byte → List (List Byte)
  | 0, _ => []
  | n + 1, bs => bs.take 4 :: quads n (bs.drop 4)

/-- The 15 round keys of 16 bytes. -/
def expandKey (t : List Byte) (key : List Byte) : List (List Byte) :=
  let ws := ((List.range 52).foldl (fun ws i => expandStep t (i + 8) ws) (quads 8 key).reverse).reverse
  (List.range 15).map fun r => ((ws.drop (4 * r)).take 4).flatten

/-- ShiftRows on a state of 16 bytes, column by column. -/
def shiftRows (s : List Byte) : List Byte :=
  (List.range 16).map fun i => s.getD ((i % 4 + 4 * ((i / 4 + i % 4) % 4))) 0

/-- MixColumns on one column. -/
def mixColumn (s : List Byte) : List Byte :=
  match s with
  | [a, b, c, d] =>
    [xtime a ^^^ (xtime b ^^^ b) ^^^ c ^^^ d, a ^^^ xtime b ^^^ (xtime c ^^^ c) ^^^ d,
     a ^^^ b ^^^ xtime c ^^^ (xtime d ^^^ d), (xtime a ^^^ a) ^^^ b ^^^ c ^^^ xtime d]
  | s => s

/-- Encrypt one block under expanded round keys. -/
def aesBlock (t : List Byte) (ks : List (List Byte)) (block : List Byte) : List Byte :=
  let s := xorBytes block (ks.getD 0 [])
  let s := ((ks.drop 1).take 13).foldl (fun s k =>
    xorBytes (((quads 4 (shiftRows (s.map (sub t)))).map mixColumn).flatten) k) s
  xorBytes (shiftRows (s.map (sub t))) (ks.getD 14 [])

/-! ### GCM -/

/-- Product in GF(2^128) as SP 800-38D numbers its bits. -/
def ghashMul (x y : Nat) : Nat :=
  ((List.range 128).foldl (fun (s : Nat × Nat) i =>
    let z := if x.testBit (127 - i) then Nat.xor s.1 s.2 else s.1
    (z, if s.2 % 2 = 1 then Nat.xor (s.2 / 2) (0xE1 * 2 ^ 120) else s.2 / 2)) (0, y)).1

/-- Blocks of 16 bytes, the last padded with zeros. -/
def blocks16 : Nat → List Byte → List (List Byte)
  | 0, _ => []
  | n + 1, bs => (bs.take 16 ++ List.replicate (16 - (bs.take 16).length) 0) :: blocks16 n (bs.drop 16)

/-- GHASH over additional data and ciphertext. -/
def ghash (h : Nat) (aad ct : List Byte) : Nat :=
  let bs := blocks16 ((aad.length + 15) / 16) aad ++ blocks16 ((ct.length + 15) / 16) ct ++
    [beBytes 8 (8 * aad.length) ++ beBytes 8 (8 * ct.length)]
  bs.foldl (fun y b => ghashMul (Nat.xor y (beNat b)) h) 0

/-- The tag of GCM for additional data and ciphertext under a 12-byte IV. -/
def gcmTag (key iv aad ct : List Byte) : List Byte :=
  let t := sboxTable
  let ks := expandKey t key
  let h := beNat (aesBlock t ks (List.replicate 16 0))
  let s := ghash h aad ct
  xorBytes (beBytes 16 s) (aesBlock t ks (iv ++ beBytes 4 1))

/-- The GCM key stream applied to a text. -/
def gcmCrypt (key iv text : List Byte) : List Byte :=
  let t := sboxTable
  let ks := expandKey t key
  let n := (text.length + 15) / 16
  xorBytes text ((List.range n).flatMap fun i => aesBlock t ks (iv ++ beBytes 4 (i + 2)))

/-! ### ECDSA on P-256 -/

/-- The field prime. -/
def pField : Nat := 0xFFFFFFFF00000001000000000000000000000000FFFFFFFFFFFFFFFFFFFFFFFF
/-- The group order. -/
def pOrder : Nat := 0xFFFFFFFF00000000FFFFFFFFFFFFFFFFBCE6FAADA7179E84F3B9CAC2FC632551
/-- The curve coefficient b. -/
def pB : Nat := 0x5AC635D8AA3A93E7B3EBBD55769886BC651D06B0CC53B0F63BCE3C3E27D2604B
/-- The base point. -/
def pGx : Nat := 0x6B17D1F2E12C4247F8BCE6E563A440F277037D812DEB33A0F4A13945D898C296
def pGy : Nat := 0x4FE342E2FE1A7F9B8EE7EB4A7C0F9E162BCE33576B315ECECBB6406837BF51F5

/-- Difference in the field. -/
def fsub (a b : Nat) : Nat := (a + (pField - b % pField)) % pField

/-- Power modulo `m`, by the low `n` bits of the exponent. -/
def powMod (m : Nat) : Nat → Nat → Nat → Nat
  | 0, _, _ => 1 % m
  | n + 1, e, b =>
    let r := powMod m n (e / 2) (b * b % m)
    if e % 2 = 1 then r * b % m else r

/-- A point in Jacobian coordinates; Z = 0 is the neutral point. -/
abbrev Jac := Nat × Nat × Nat

/-- Double a point (a = −3). -/
def jdouble (p : Jac) : Jac :=
  let (x, y, z) := p
  if z = 0 ∨ y = 0 then (1, 1, 0)
  else
    let y2 := y * y % pField
    let s := 4 * x * y2 % pField
    let z2 := z * z % pField
    let m := 3 * fsub x z2 * ((x + z2) % pField) % pField
    let x' := fsub (m * m % pField) (2 * s)
    (x', fsub (m * fsub s x') (8 * y2 * y2), 2 * y * z % pField)

/-- Add two points. -/
def jadd (p q : Jac) : Jac :=
  let (x1, y1, z1) := p
  let (x2, y2, z2) := q
  if z1 = 0 then q else if z2 = 0 then p
  else
    let zz1 := z1 * z1 % pField
    let zz2 := z2 * z2 % pField
    let u1 := x1 * zz2 % pField
    let u2 := x2 * zz1 % pField
    let s1 := y1 * zz2 * z2 % pField
    let s2 := y2 * zz1 * z1 % pField
    if u1 = u2 then (if s1 = s2 then jdouble p else (1, 1, 0))
    else
      let h := fsub u2 u1
      let r := fsub s2 s1
      let hh := h * h % pField
      let hhh := hh * h % pField
      let v := u1 * hh % pField
      let x3 := fsub (fsub (r * r % pField) hhh) (2 * v)
      (x3, fsub (r * fsub v x3) (s1 * hhh), h * z1 * z2 % pField)

/-- Multiply a point by the low `n` bits of a scalar. -/
def jmul : Nat → Nat → Jac → Jac
  | 0, _, _ => (1, 1, 0)
  | n + 1, k, p =>
    let r := jmul n (k / 2) (jdouble p)
    if k % 2 = 1 then jadd r p else r

/-- The affine x coordinate. -/
def jx (p : Jac) : Nat :=
  let zi := powMod pField 256 (pField - 2) p.2.2
  p.1 * zi % pField * zi % pField

/-- The public key is a point of the curve. -/
def onCurve (x y : Nat) : Bool :=
  decide (x < pField) && decide (y < pField) &&
    decide (y * y % pField = (x * x % pField * x + 3 * (pField - x) + pB) % pField)

/-- ECDSA verification with SHA-256: key X ‖ Y and signature r ‖ s, 64 bytes each, big-endian. -/
def ecdsaVerify (key msg sig : List Byte) : Bool :=
  let x := beNat (key.take 32)
  let y := beNat ((key.drop 32).take 32)
  let r := beNat (sig.take 32)
  let s := beNat ((sig.drop 32).take 32)
  if onCurve x y && decide (0 < r) && decide (r < pOrder) && decide (0 < s) && decide (s < pOrder) then
    let e := beNat (sha256 msg)
    let w := powMod pOrder 256 (pOrder - 2) s
    let q := jadd (jmul 256 (e * w % pOrder) (pGx, pGy, 1)) (jmul 256 (r * w % pOrder) (x, y, 1))
    q.2.2 != 0 && decide (jx q % pOrder = r)
  else false

end Sys2Proof.Machine.Crypto
end

