-- ==== Sys2Proof/Machine/Otp.lean ====
section
/-!
DEFINITION. Machine/Otp.lean: programming of the OTP array (R596 to R604), lifecycle transitions (R151 to R156) and
lens-calibration slots (R509).
-/
namespace Sys2Proof.Machine

/-- The lifecycle state in force (R153). -/
def Chip.lifecycle (c : Chip) : Nat := c.fld F.LIFECYCLE.STATE

/-- VPP_OTP lies within its range at a measurement of `mv` (R597, R605). -/
def vppInRange (mv : Nat) : Bool := decide (1760 ≤ mv) && decide (mv ≤ 1840)

/-- The controller measures VPP_OTP. -/
def Chip.measureVpp (c : Chip) (mv : Nat) : Chip := (c.set F.OTP_VPP.MV mv).setBit F.OTP_VPP.IN_RANGE (vppInRange mv)

/-- The array is read again at the normal read: what follows the fuses at once follows them. -/
def Chip.otpReread (c : Chip) (fz : Fuses) : Chip :=
  { c with otp := { c.otp with lastRead := fz.burned } }.set F.LIFECYCLE.PENDING (lifecycleCode fz.burned)

/-! ### The end of an operation -/

/-- An OTP_CTRL request ends or is refused with a result (R596): events and faults. -/
def Chip.otpResult (c : Chip) (result : Nat) (refused : Bool) : Chip :=
  let c := c.set F.OTP_STATUS.RESULT result
  if result = 1 then c.raise F.OTP_EVENTS.DONE
  else
    let c := c.raise F.OTP_EVENTS.FAIL
    if result = 0xC then c
    else if refused = false ∧ (result = 5 ∨ result = 8 ∨ result = 0xA) then c.alert Code.OTP_PROG_FAIL noUnit 0
    else c.alert Code.OTP_PROG_REJECTED noUnit 0

/-- The operation in progress ends with a result of OTP_STATUS.RESULT (R596, R152, R509). -/
def Chip.otpFinish (c : Chip) (fz : Fuses) (kind : OtpKind) (result : Nat) : Chip :=
  let c := { c with otp := { c.otp with job := none } }.setBit F.OTP_STATUS.BUSY false
  let c := c.otpReread fz
  match kind with
  | .ctrl _ _ => c.otpResult result false
  | .lifecycle _ =>
    let c := c.setBit F.LIFECYCLE.LC_BUSY false
    if result = 1 then c.set F.LIFECYCLE.LC_RESULT 1
    else if result = 5 then c.set F.LIFECYCLE.LC_RESULT 5
    else c.set F.LIFECYCLE.LC_RESULT 7
  | .lens _ =>
    let c := c.setBit F.LENS_CAL_STATUS.BUSY false
    if result = 1 then { c with otp := { c.otp with lensRead := fz.burned } }.set F.LENS_CAL_STATUS.RESULT 1
    else if result = 5 then (c.set F.LENS_CAL_STATUS.RESULT 4).alert Code.LENS_CAL_FAIL noUnit 0
    else (c.set F.LENS_CAL_STATUS.RESULT 5).alert Code.LENS_CAL_FAIL noUnit 0

/-- The fuses' lists are canonical, and a weak fuse is a burned one (R603). -/
def Fuses.wf (fz : Fuses) : Bool :=
  Sparse.wf (fun _ => false) fz.burned && Sparse.wf (fun _ => false) fz.weak && fz.weak.all fun e => fuseAt fz.burned e.1

/-- A fuse already reads 1 at the program margin, so that it is not pulsed (R597). -/
def Fuses.strong (fz : Fuses) (a : Nat) : Bool := fuseAt fz.burned a && !fuseAt fz.weak a

/-- Start an operation that burns these fuses in this order; with none left to burn it is done at once. -/
def Chip.otpStart (c : Chip) (fz : Fuses) (kind : OtpKind) (fuses : List Nat) : Chip :=
  let todo := fuses.filter fun a => !fz.strong a
  let c := (c.set F.OTP_PROGRESS.TOTAL todo.length).set F.OTP_PROGRESS.DONE 0
  if todo.isEmpty then c.otpFinish fz kind 1
  else
    { c with otp := { c.otp with job := some { kind := kind, todo := todo, tries := 0, stopping := false } } }.setBit
      F.OTP_STATUS.BUSY true

/-! ### The pulse (R597) -/

/-- Fuses after a pulse on fuse `a`: it reads 1 from then on if it reads 1 at all, and is weak while it fails the margin.
A burned fuse never returns to 0 (R578). -/
def Fuses.pulse (fz : Fuses) (a : Nat) (reads margin : Bool) : Fuses :=
  let burned := if reads || margin then burnFuse fz.burned a else fz.burned
  { burned := burned, weak := Sparse.set (fun _ => false) fz.weak a (fuseAt burned a && !margin) }

/-- OTP_PULSE: VPP_OTP is measured, the fuse at the front is pulsed and verified at the program margin. `reads` and
`margin` say how the fuse reads after the pulse, at the normal read and at the margin. -/
def otpPulse (mv : Nat) (reads margin : Bool) (fz : Fuses) (c : Chip) : Fuses × Chip :=
  match c.otp.job with
  | none => (fz, c.measureVpp mv)
  | some job =>
    match job.todo with
    | [] => (fz, c.measureVpp mv)
    | a :: rest =>
      let c := c.measureVpp mv
      if vppInRange mv = false then (fz, c.otpFinish fz job.kind 5)
      else
        let fz' := fz.pulse a reads margin
        let c := if margin then c.count F.OTP_PROGRESS.DONE 1 else c
        let c := if margin = true ∧ (otpRegionOf a).any (fun g => (otpRegion g).append) = true
          then { c with otp := { c.otp with lastRead := burnFuse c.otp.lastRead a } } else c
        let ends := job.stopping || !(c.dev == .hold)
        if ends then (fz', c.otpFinish fz' job.kind 0xC)
        else if margin then
          if rest.isEmpty then (fz', c.otpFinish fz' job.kind 1)
          else (fz', { c with otp := { c.otp with job := some { job with todo := rest, tries := 0 } } })
        else if 4 ≤ job.tries + 1 then (fz', c.otpFinish fz' job.kind 0xA)
        else (fz', { c with otp := { c.otp with job := some { job with tries := job.tries + 1 } } })

/-- OTP_PULSE. -/
def execOtpPulse (mv : Nat) (reads margin : Bool) (s : State) : Host.Outcome State Fault Refusal :=
  actFuses (.otpPulse mv reads margin) (otpPulse mv reads margin) s

/-! ### OTP_CTRL requests (R596) -/

/-- The lifecycle state and the region's kind permit an OP (R578, R600, R604). -/
def otpPermitted (op region lc : Nat) : Bool :=
  let open_ := (otpRegion region).when_.contains lc
  match op with
  | 1 => open_ && !(otpRegion region).append
  | 2 => open_ && region != 0
  | 3 => open_ && decide (12 ≤ region)
  | 4 => open_
  | 5 => open_
  | 6 => true
  | 7 => lc != 5
  | _ => false

/-- KEY, OP, REGION and ENC of a request are valid. -/
def otpValid (key op region enc : Nat) : Bool :=
  key == 0x4F54 && decide (1 ≤ op) && decide (op ≤ 7) && decide (region < 16) &&
  (if op = 4 then region == 9 else if op = 5 then region == 11
   else if op = 1 then (if region = 10 then enc == 1 || enc == 2 else (otpRegion region).encs.contains enc)
   else true)

/-- The first failing condition of R596, as its result; 0 when every condition holds. -/
def Chip.otpRefusal (c : Chip) (key op region enc : Nat) : Nat :=
  if otpValid key op region enc = false then 2
  else if c.otp.job.isSome then 0xB
  else if c.dev ≠ .hold then 4
  else if otpPermitted op region c.lifecycle = false then 3
  else if c.bit F.OTP_VPP.IN_RANGE = false then 5
  else if op ≠ 7 ∧ op ≠ 6 ∧ otpWl c.otp.lastRead region = true then 6
  else 0

/-- The data bits of OTP_BUF that PROGRAM writes (R598). -/
def Chip.programBit (c : Chip) (i : Nat) : Bool :=
  let len := max 1 (c.fld F.OTP_PARAM.LENGTH)
  decide (i < 32 * len) && (c.word (A.OTP_BUF + 4 * (i / 32))).toNat.testBit (i % 32)

/-- Set bits of a number of `n` bits. -/
def onesOf (n v : Nat) : List Nat := (List.range n).filter v.testBit

/-- The fuses that sealing a FIXED region burns, in order: body, CRC, HEADER, RL of regions 6 and 8, SEAL (R598). -/
def programFuses (g enc : Nat) (bit : Nat → Bool) : List Nat :=
  let n := bodyCapacity g enc
  let ones := (List.range n).filter bit
  let k := if enc = 1 then 2 else 3
  let header := enc + 4 * g + 256
  let crc := regionCrc header n bit
  (List.range k).flatMap (fun j => ones.map fun i => otpBody g + i + j * n) ++
    (List.range 2).flatMap (fun j => (onesOf 32 crc).map fun i => otpBase g + 48 + i + 32 * j) ++
    (List.range 3).flatMap (fun j => (onesOf 16 header).map fun i => otpBase g + i + 16 * j) ++
    (if g = 6 ∨ g = 8 then rlCopies g else []) ++ sealCopies g

/-- The region-specific checks of R590 on the content to program. -/
def defectFormat (enc : Nat) (bit : Nat → Bool) : Bool :=
  let num (i n : Nat) : Nat := bitsNat ((List.range n).map fun k => bit (i + k))
  let count := num 0 16
  let cap := if enc = 1 then 250 else 166
  let pos (e : Nat) : Nat × Nat := (num (32 * (e + 1) + 16) 13, num (32 * (e + 1)) 13)
  let word (e : Nat) : Nat := num (32 * (e + 1)) 32
  decide (count ≤ cap) && num 16 16 == 0 &&
  (List.range count).all (fun e =>
    decide ((pos e).1 < 6144) && decide ((pos e).2 < 8192) &&
    word e == (pos e).2 + 65536 * (pos e).1 &&
    (e == 0 || decide (8192 * (pos (e - 1)).1 + (pos (e - 1)).2 < 8192 * (pos e).1 + (pos e).2))) &&
  (List.range (cap - count)).all fun k => word (count + k) == 0

/-- PROGRAM (R598), once the conditions of R596 hold. -/
def Chip.otpProgram (c : Chip) (fz : Fuses) (g enc : Nat) : Chip :=
  let len := max 1 (c.fld F.OTP_PARAM.LENGTH)
  let fuses := programFuses g enc c.programBit
  if otpSeal fz.burned g then c.otpResult 7 false
  else if bodyCapacity g enc < 32 * len ∨ (g = 5 ∧ defectFormat enc c.programBit = false) then c.otpResult 9 false
  else if fz.burned.any fun e =>
      e.2 && decide (otpBase g ≤ e.1) && decide (e.1 < otpBody g + otpBodyBits g) && !fuses.contains e.1 &&
        !(wlCopies g).contains e.1 && !(rlCopies g).contains e.1 then
    c.otpResult 8 false
  else c.otpStart fz (.ctrl 1 g) fuses

/-- ROLLBACK_ADVANCE (R601). -/
def Chip.otpRollback (c : Chip) (fz : Fuses) : Chip :=
  let target := c.fld F.OTP_PARAM.TARGET
  let now := rollbackCounter fz.burned
  if c.bit F.DEV_STATE.IMAGE_OK && decide (target ≤ 64) && decide (target ≤ c.fld F.IMG_ROLLBACK.IMAGE) &&
      decide (now < target) then
    c.otpStart fz (.ctrl 4 9) ((List.range (target - now)).flatMap fun i => bodyCopies 9 2 (now + i))
  else c.otpResult 0xD false

/-- CEILING_LOWER (R602). -/
def Chip.otpCeiling (c : Chip) (fz : Fuses) : Chip :=
  let target := c.fld F.OTP_PARAM.TARGET
  let n := loweringCount fz.burned
  if target < fusedCeiling fz.burned then
    c.otpStart fz (.ctrl 5 11) ((List.range (7 - target - n)).flatMap fun i => bodyCopies 11 2 (n + i))
  else c.otpResult 0xD false

/-- The fuses of a region that are burned and weak (R603). -/
def weakFuses (fz : Fuses) (g : Nat) : List Nat :=
  (fz.weak.filter fun e => e.2 && fuseAt fz.burned e.1 && otpRegionOf e.1 == some g).map (·.1)

/-- An OTP_CTRL write with an OP other than ABORT (R596); in a state other than HOLD it is refused with NOT_HOLD (log entry 119). -/
def Chip.otpRequest (c : Chip) (fz : Fuses) (key op region enc : Nat) : Chip :=
  if c.dev.portsAnswer then
    let why := c.otpRefusal key op region enc
    if why = 0xB then c.otpResult 0xB true
    else
      let c := c.set F.OTP_STATUS.OP op
      if why ≠ 0 then c.otpResult why true
      else
        match op with
        | 1 => c.otpProgram fz region enc
        | 2 => c.otpStart fz (.ctrl 2 region) (if otpWl fz.burned region then [] else wlCopies region)
        | 3 => c.otpStart fz (.ctrl 3 region) (if otpRl fz.burned region then [] else rlCopies region)
        | 4 => c.otpRollback fz
        | 5 => c.otpCeiling fz
        | 6 =>
          let job : OtpJob := { kind := .ctrl 6 region, todo := [], tries := 0, stopping := false }
          { c with otp := { c.otp with job := some job } }.setBit F.OTP_STATUS.BUSY true
        | _ => c.otpStart fz (.ctrl 7 region) (weakFuses fz region)
  else c

/-- PROGRAM. -/
def execProgram (key region enc : Nat) (s : State) : Host.Outcome State Fault Refusal :=
  act (.program key region enc) (fun fz c => c.otpRequest fz key 1 region enc) s

/-- LOCK_WRITE. -/
def execLockWrite (key region : Nat) (s : State) : Host.Outcome State Fault Refusal :=
  act (.lockWrite key region) (fun fz c => c.otpRequest fz key 2 region 0) s

/-- LOCK_READ. -/
def execLockRead (key region : Nat) (s : State) : Host.Outcome State Fault Refusal :=
  act (.lockRead key region) (fun fz c => c.otpRequest fz key 3 region 0) s

/-- ROLLBACK_ADVANCE. -/
def execRollbackAdvance (key region : Nat) (s : State) : Host.Outcome State Fault Refusal :=
  act (.rollbackAdvance key region) (fun fz c => c.otpRequest fz key 4 region 0) s

/-- CEILING_LOWER. -/
def execCeilingLower (key region : Nat) (s : State) : Host.Outcome State Fault Refusal :=
  act (.ceilingLower key region) (fun fz c => c.otpRequest fz key 5 region 0) s

/-- MARGIN_SCAN. -/
def execMarginScan (key region : Nat) (s : State) : Host.Outcome State Fault Refusal :=
  act (.marginScan key region) (fun fz c => c.otpRequest fz key 6 region 0) s

/-- REBURN. -/
def execReburn (key region : Nat) (s : State) : Host.Outcome State Fault Refusal :=
  act (.reburn key region) (fun fz c => c.otpRequest fz key 7 region 0) s

/-- OTP ABORT (R599): it acts only on an operation started through OTP_CTRL. A margin scan has no pulse to wait for. -/
def Chip.otpAbort (c : Chip) (fz : Fuses) (key : Nat) : Chip :=
  if c.dev.open && key == 0x4F54 then
    match c.otp.job with
    | some job =>
      match job.kind with
      | .ctrl _ _ =>
        if job.todo.isEmpty then c.otpFinish fz job.kind 0xC
        else { c with otp := { c.otp with job := some { job with stopping := true } } }
      | _ => c
    | none => c
  else c

/-- OTP_ABORT. -/
def execOtpAbort (key : Nat) (s : State) : Host.Outcome State Fault Refusal :=
  act (.otpAbort key) (fun fz c => c.otpAbort fz key) s

/-- A margin scan completes (R603). `leaky` are the fuses that draw more than 0.5 µA; those that are unburned count. -/
def Chip.marginScanDone (c : Chip) (fz : Fuses) (leaky : List Nat) : Chip :=
  match c.otp.job with
  | some { kind := .ctrl 6 region, todo := _, tries := _, stopping := _ } =>
    let inScan (a : Nat) : Bool :=
      match otpRegionOf a with
      | some g => region == 15 || g == region
      | none => false
    let weak := (fz.weak.filter fun e => e.2 && fuseAt fz.burned e.1 && inScan e.1).map (·.1)
    let leaks := leaky.filter fun a => !fuseAt fz.burned a && inScan a
    let found := weak ++ leaks
    let first := found.foldl min 0x7FFF
    let hidden := match otpRegionOf first with
      | some g => g == 6 || g == 8 || otpRl c.otp.lastRead g
      | none => true
    let marks := (List.range 16).foldl (fun m g =>
      if found.any (fun a => otpRegionOf a == some g) then m ||| 2 ^ g else m) 0
    let c := { c with otp := { c.otp with weakRegions := marks } }
    let c := (c.set F.OTP_WEAK.WEAK (min 255 weak.length)).set F.OTP_WEAK.LEAKY (min 255 leaks.length)
    let c := c.set F.OTP_WEAK.FIRST (if hidden then 0x7FFF else first)
    let c := if found.isEmpty then c else (c.raise F.OTP_EVENTS.WEAK).alert Code.OTP_WEAK noUnit 0
    c.otpFinish fz (.ctrl 6 region) 1
  | _ => c

/-- MARGIN_SCAN_DONE. -/
def execMarginScanDone (leaky : List Nat) (s : State) : Host.Outcome State Fault Refusal :=
  act (.marginScanDone leaky) (fun fz c => c.marginScanDone fz leaky) s

/-! ### Lifecycle transitions (R151, R152, R156) -/

/-- The fuse bit that a transition burns, 0 T to 4 V; none outside the table of R151. -/
def lcBit (fromCode target : Nat) : Option Nat :=
  match fromCode, target with
  | 0, 1 => some 0
  | 1, 2 => some 1
  | 2, 3 => some 2
  | 3, 4 => some 3
  | 5, _ => none
  | _, 5 => some 4
  | _, _ => none

/-- Key bytes of a 512-bit constant. -/
def keyBytes (v : BitVec 512) : List Byte := beBytes 64 v.toNat

/-- The RMA authorization in LC_AUTH is valid (R156). -/
def Chip.rmaValid (c : Chip) : Bool :=
  let msg := beBytes 8 (serialOf c.otp.sensed) ++ beBytes 4 (c.word A.LC_CHAL_HI).toNat ++
    beBytes 4 (c.word A.LC_CHAL_LO).toNat ++ [0x04]
  let sig := (List.range 16).flatMap fun k => leBytes 4 (c.word (A.LC_AUTH + 4 * k)).toNat
  Crypto.ecdsaVerify (keyBytes Config.vendorKey) msg sig

/-- A new LC_CHAL is drawn (R156). -/
def Chip.drawChallenge (c : Chip) : Chip :=
  let (n, c) := c.draw
  let v := (Config.trng n).toNat
  (c.put A.LC_CHAL_LO (Word.of v)).put A.LC_CHAL_HI (Word.of (v / 0x100000000))

/-- An image push is in progress (R152). -/
def Chip.pushing (c : Chip) : Bool :=
  match c.loader.load with
  | some l => l.source == .push
  | none => false

/-- LC_RESULT of a request, 0 when it starts programming (R152; order in log entry 17). -/
def Chip.lcRefusal (c : Chip) (key target : Nat) : Nat :=
  let pending := lifecycleCode c.otp.lastRead
  if key ≠ 0x4C43 ∨ target = 0 ∨ 5 < target then 2
  else if c.dev ≠ .hold then 4
  else if c.pushing || c.otp.job.isSome then 8
  else if c.bit F.OTP_VPP.IN_RANGE = false then 5
  else
    match lcBit pending target with
    | none => 3
    | some b =>
      if b ≤ 1 ∧ c.bit F.STRAPS.TMODE = false then 3
      else if b = 3 ∧ c.rmaValid = false then 6
      else 0

/-- A write of LC_CTRL (R152, R156); a state that does not act on the register only reports the refusal (log entry 119). -/
def Chip.lcCtrl (c : Chip) (fz : Fuses) (key target : Nat) : Chip :=
  if c.dev.open then
    let why := c.lcRefusal key target
    let bit := (lcBit (lifecycleCode c.otp.lastRead) target).getD 0
    let c := (List.range 16).foldl (fun c k => c.put (A.LC_AUTH + 4 * k) 0) c
    let c := c.drawChallenge
    if why = 0 then
      (c.setBit F.LIFECYCLE.LC_BUSY true).otpStart fz (.lifecycle target) (bodyCopies 0 2 bit)
    else
      let c := c.set F.LIFECYCLE.LC_RESULT why
      if why = 6 then c.alert Code.LC_AUTH_FAIL noUnit 0 else c
  else if c.dev.portsAnswer then c.set F.LIFECYCLE.LC_RESULT (c.lcRefusal key target)
  else c

/-- LC_CTRL. -/
def execLcCtrl (key target : Nat) (s : State) : Host.Outcome State Fault Refusal :=
  act (.lcCtrl key target) (fun fz c => c.lcCtrl fz key target) s

/-! ### Lens-calibration slots (R509) -/

/-- LENS_CAL_STATUS.RESULT of a request, 0 when it starts programming. -/
def Chip.lensRefusal (c : Chip) (fz : Fuses) (key : Nat) : Nat :=
  let free := (List.range 16).find? fun s => !slotUsed fz.burned s
  if key ≠ 0x4C53 ∨ (c.word A.LENS_CAL_WR_HI).toNat / 65536 ≠ 0 then 6
  else if c.otp.job.isSome then 7
  else if c.dev ≠ .hold ∨ (otpRegion 10).when_.contains c.lifecycle = false ∨ otpWl c.otp.lastRead 10 = true then 3
  else if c.bit F.OTP_VPP.IN_RANGE = false then 4
  else if free.isNone then 2
  else 0

/-- A write of LENS_CAL_PROG with GO (R509); outside HOLD it is refused (log entry 119). -/
def Chip.lensProgram (c : Chip) (fz : Fuses) (key : Nat) : Chip :=
  if c.dev.portsAnswer then
    let why := c.lensRefusal fz key
    if why = 0 then
      let slot := ((List.range 16).find? fun s => !slotUsed fz.burned s).getD 0
      let data := (c.word A.LENS_CAL_WR_LO).toNat + 0x100000000 * (c.word A.LENS_CAL_WR_HI).toNat
      let ones := onesOf 64 data
      let fuses := (List.range 2).flatMap (fun j => ones.map fun i => otpBody 10 + 64 * slot + i + 1024 * j) ++
        bodyCopies 10 1 (1024 + slot)
      (c.setBit F.LENS_CAL_STATUS.BUSY true).otpStart fz (.lens slot) fuses
    else
      let c := c.set F.LENS_CAL_STATUS.RESULT why
      if why = 2 ∨ why = 3 ∨ why = 4 then c.alert Code.LENS_CAL_FAIL noUnit 0 else c
  else c

/-- LENS_CAL_PROG. -/
def execLensCalProg (key : Nat) (s : State) : Host.Outcome State Fault Refusal :=
  act (.lensCalProg key) (fun fz c => c.lensProgram fz key) s

end Sys2Proof.Machine
end

