-- ==== Sys2Proof/Machine/Records.lean ====
section
/-!
DEFINITION. Machine/Records.lean: the result records (R550 to R557, R561, R613, R626), the crop requests and crop rows
(R566, R567), and the metadata lines (R569).
-/
namespace Sys2Proof.Machine

/-! ### The publish sequencer's section (R553) -/

/-- A source descriptor. -/
structure Source where
  kind : Nat
  cls : Nat
  tag : Nat
  net : Nat
  rows : Nat
  addr : Nat
  aux : Nat
  cap : Nat
  classBase : Nat
  most : Nat
  rsv : List Byte
  deriving DecidableEq, Repr

/-- The source whose 32 bytes these are. -/
def Source.ofBytes (b : List Byte) : Source :=
  { kind := leAt b 0 1, cls := leAt b 1 1, tag := leAt b 2 2, net := leAt b 4 2, rows := leAt b 6 2, addr := leAt b 8 4,
    aux := leAt b 12 4, cap := leAt b 16 2, classBase := leAt b 18 2, most := leAt b 20 1, rsv := sliceOf b 21 11 }

/-- STATE_MACHINE instance 2; its plane descriptors, sources and queue. -/
def Image.sequencer (im : Image) : List Byte := im.body Ty.STATE_MACHINE 2
def Image.planes (im : Image) : List (List Byte) :=
  (List.range (leAt im.sequencer 3 1)).map fun i => sliceOf im.sequencer (16 + 16 * i) 16
def Image.sources (im : Image) : List Source :=
  (List.range (leAt im.sequencer 2 1)).map fun i =>
    Source.ofBytes (sliceOf im.sequencer (16 + 16 * leAt im.sequencer 3 1 + 32 * i) 32)
def Image.outQueue (im : Image) : Nat := if im.sequencer.isEmpty then 0xFFFF else leAt im.sequencer 4 2

/-- The layout of a plane (R288). -/
def planeOut (b : List Byte) : OutDesc :=
  { scale := leAt b 1 1, fmt := leAt b 2 1, tile := leAt b 3 1, nbands := leAt b 4 1, base := leAt b 8 4, queue := 0xFFFF,
    rsv := [] }

/-! ### Records (R550 to R552) -/

/-- A byte string filled with zeros to `n` bytes. -/
def padTo (n : Nat) (bs : List Byte) : List Byte := bs ++ List.replicate (n - bs.length) 0

/-- A record from its header fields and its payload from offset 0x10 on. -/
def recordOf (ty flags tag frame stamp : Nat) (payload : List Byte) : List Byte :=
  padTo 64 (leBytes 1 ty ++ leBytes 1 flags ++ leBytes 2 tag ++ leBytes 4 frame ++ leBytes 8 stamp ++ payload)

/-- CLASS and FLAGS of a record without a source: class 0x3, VALID. -/
abbrev plainFlags : Nat := 7

/-- CLASS and FLAGS of a record from a source of a network with these marks (R552). -/
def flagByte (cls marks : Nat) (poison : Bool) : Nat :=
  let bad := poison || marks.testBit 4
  cls % 4 + 4 * (!(bad || marks.testBit 0 || marks.testBit 1)).toNat + 8 * (marks.testBit 2).toNat +
    16 * (marks.testBit 3).toNat + 32 * bad.toNat + 64 * (marks.testBit 0).toNat + 128 * (marks.testBit 1).toNat

/-- What the records of one frame share: its number, its stamp and the marks of its networks. -/
structure PubFrame where
  frame : Nat
  stamp : Nat
  marks : List (Nat × Nat)
  deriving DecidableEq, Repr

/-- Flags of a record of a source. -/
def PubFrame.flags (k : PubFrame) (s : Source) (poison : Bool) : Nat :=
  flagByte s.cls (Sparse.get (fun _ => 0) k.marks s.net) poison

/-- A record of a source. -/
def PubFrame.build (k : PubFrame) (s : Source) (poison : Bool) (payload : List Byte) : List Byte :=
  recordOf s.kind (k.flags s poison) s.tag k.frame k.stamp payload

/-- Gather lists while the chip passes along. -/
def Chip.gatherOver {α β : Type} (f : α → Chip → List β × Chip) : List α → Chip → List β × Chip
  | [], c => ([], c)
  | a :: as, c =>
    let (x, c) := f a c
    let (y, c) := Chip.gatherOver f as c
    (x ++ y, c)

/-! ### LABEL, BOX and MASK (R554 to R557) -/

/-- Basin offset of list row `r` (R345). -/
def Source.listRow (s : Source) (r : Nat) : Nat := s.addr + r * ((s.cap + 1) * 8)

/-- A list row's COUNT, held at the capacity, and whether a byte of it is poisoned. -/
def Chip.listCount (c : Chip) (s : Source) (r : Nat) : (Nat × Bool) × Chip :=
  let (bs, c) := c.memRead .engine 0 (s.listRow r) 4
  ((min (leNat (bytesOf bs)) s.cap, poisonedEl bs), c)

/-- An fp32 score as fp16 (R294, R557). -/
def scoreBytes (b : Nat) : List Byte := leBytes 2 (f16 (ofF32 (engineIn b).1))

/-- The records of a LABEL row. -/
def PubFrame.label (k : PubFrame) (s : Source) (r : Nat) (c : Chip) : List (List Byte) × Chip :=
  let ((n, p), c) := c.listCount s r
  if n = 0 then ([], c)
  else
    let n := min n s.most
    let (bs, c) := c.memRead .engine 0 (s.listRow r + 8) (8 * n)
    let es := (recordsOf 8 (bytesOf bs)).flatMap fun e => leBytes 2 (s.classBase + leAt e 0 4) ++ scoreBytes (leAt e 4 4)
    ([k.build s (p || poisonedEl bs) (leBytes 1 n ++ leBytes 1 0 ++ leBytes 2 r ++ es)], c)

/-- The record of entry `i` of a BOX row. -/
def PubFrame.boxEntry (k : PubFrame) (s : Source) (r : Nat) (p : Bool) (i : Nat) (c : Chip) : List (List Byte) × Chip :=
  let (e, c) := c.memRead .engine 0 (s.listRow r + 8 * i) 8
  let j := leAt (bytesOf e) 0 4
  let (b, c) := c.memRead .engine 0 (s.aux + 16 * j) 16
  ([k.build s (p || poisonedEl e || poisonedEl b)
    (leBytes 2 (s.classBase + r) ++ scoreBytes (leAt (bytesOf e) 4 4) ++ bytesOf b ++ leBytes 4 j ++ leBytes 2 r ++
      leBytes 2 i)], c)

/-- The records of a BOX row. -/
def PubFrame.box (k : PubFrame) (s : Source) (r : Nat) (c : Chip) : List (List Byte) × Chip :=
  let ((n, p), c) := c.listCount s r
  Chip.gatherOver (k.boxEntry s r p) ((List.range n).map (· + 1)) c

/-- Width of a MASK map, and its records per row. -/
def Source.maskWidth (s : Source) : Nat := s.aux % 65536
def Source.maskSegments (s : Source) : Nat := (s.maskWidth + 39) / 40

/-- The records of a MASK row. -/
def PubFrame.mask (k : PubFrame) (s : Source) (y : Nat) (c : Chip) : List (List Byte) × Chip :=
  Chip.gatherOver (fun i c =>
    let n := min 40 (s.maskWidth - 40 * i)
    let (bs, c) := c.memRead .engine 0 (s.addr + y * s.maskWidth + 40 * i) n
    ([k.build s (poisonedEl bs)
      (leBytes 2 y ++ leBytes 2 (40 * i) ++ leBytes 1 n ++ leBytes 1 (s.aux / 65536 % 16) ++ leBytes 2 0 ++ bytesOf bs)], c))
    (List.range s.maskSegments) c

/-- The records of a source at a level; a MASK below level 1 yields none (R558, R565). -/
def PubFrame.source (k : PubFrame) (level : Nat) (s : Source) (c : Chip) : List (List Byte) × Chip :=
  match s.kind with
  | 1 => Chip.gatherOver (k.label s) (List.range s.rows) c
  | 2 => Chip.gatherOver (k.box s) (List.range s.rows) c
  | 3 => if level = 0 then ([], c) else Chip.gatherOver (k.mask s) (List.range s.rows) c
  | _ => ([], c)

/-- Records that a source would have yielded at a higher level. -/
def Source.withheld (level : Nat) (s : Source) : Nat :=
  if s.kind = 3 ∧ level = 0 then s.rows * s.maskSegments else 0

/-! ### FAULT and RECOVERY records (R613, R614, R626) -/

/-- Payload of a FAULT record. -/
def LogEntry.payload (e : LogEntry) : List Byte :=
  leBytes 2 e.code ++ leBytes 2 e.unit ++ leBytes 1 e.severity ++ leBytes 1 e.repeats ++ leBytes 2 e.slot ++
    leBytes 4 e.frame ++ leBytes 4 e.detail ++ leBytes 8 e.time ++ leBytes 4 e.index

/-- The entries of the window that ends now, in LOG_INDEX order. -/
def Chip.faultWindow (c : Chip) : List LogEntry :=
  let age (i : Nat) : Nat := (i + 0x100000000 - c.egress.logFrom) % 0x100000000
  c.faults.reverse.filter fun e => e.severity != 0 && decide (age e.index < age (c.fld F.FLT_LOG_HEAD.NEXT))

/-- At most 16 of them; the 16th of more has REPEAT 255. -/
def carriedFaults (es : List LogEntry) : List LogEntry :=
  if es.length ≤ 16 then es else es.take 15 ++ ((es.drop 15).take 1).map fun e : LogEntry => { e with repeats := 255 }

/-- Payload of a RECOVERY record. -/
def Recovery.payload (r : Recovery) (table mask : Nat) : List Byte :=
  leBytes 1 r.cause ++ leBytes 1 r.unit ++ leBytes 1 table ++ leBytes 1 mask ++ leBytes 4 r.eventFrame ++
    leBytes 4 r.logIndex ++ leBytes 2 r.stopped ++ leBytes 2 r.aborts ++ leBytes 2 r.discarded ++ leBytes 2 r.lost ++
    leBytes 2 r.frozen ++ leBytes 1 r.events

/-- The recovery frame of an event is `frame`. -/
def Recovery.marks (r : Recovery) (frame : Nat) : Bool := r.point.any fun p : Nat × Nat × Nat => p.1 == frame

/-- The RECOVERY record of a frame. -/
def PubFrame.recovery (k : PubFrame) (r : Recovery) : List (List Byte) :=
  match r.point with
  | some (_, table, mask) => [recordOf 0x12 plainFlags 0 k.frame k.stamp (r.payload table mask)]
  | none => []

/-! ### Crop requests (R565, R566) -/

/-- The crop cap of a level; none at level 7. -/
def cropCap (level : Nat) : Option Nat :=
  if level = 7 then none else ([0, 0, 50331, 251658, 1006632, 4026531, 12582912] : List Nat)[level]?

/-- Bits of a RAW code; none for YUV422. -/
def cropBits (fmt : Nat) : Option Nat :=
  if fmt = 0x2C then some 12 else if fmt = 0x2D then some 14 else if fmt = 0x2E then some 16 else none

/-- Requests read so far in a frame, and the accepted crops. -/
structure CropTally where
  req : Nat
  cap : Nat
  bad : Nat
  footprint : Nat
  crops : List Crop
  deriving DecidableEq, Repr

/-- A request is well formed. -/
def cropValid (im : Image) (r : Readout) (q : List MByte) : Bool :=
  let b := bytesOf q
  let o := planeOut (im.planes.getD (leAt b 0 1) [])
  let w := leAt b 8 2
  let h := leAt b 10 2
  let fmt := leAt b 1 1
  let tone := leAt b 2 1
  !poisonedEl q && decide (leAt b 0 1 < im.planes.length) && ((cropBits fmt).isSome || fmt == 0x1E) &&
    (tone == 0xFF || (decide (tone ≤ 3) && (im.curve 2 tone).isSome)) && leAt b 3 1 == 0 && leAt b 14 2 == 0 &&
    decide (1 ≤ w) && decide (1 ≤ h) && decide (leAt b 4 2 + w ≤ r.width / 2 ^ o.scale) &&
    decide (leAt b 6 2 + h ≤ r.rows / 2 ^ o.scale) && (fmt != 0x1E || w % 2 == 0)

/-- One request: rejected, or accepted within the cap. -/
def PubFrame.crop (k : PubFrame) (im : Image) (r : Readout) (level : Nat) (s : Source) (t : CropTally) (q : List MByte) :
    CropTally :=
  let b := bytesOf q
  let t := { t with req := t.req + 1 }
  if cropValid im r q then
    let p := im.planes.getD (leAt b 0 1) []
    let fp := leAt b 8 2 * leAt b 10 2 * 4 ^ (planeOut p).scale
    if (cropCap level).any fun cap => decide (cap < t.footprint + fp) then { t with cap := t.cap + 1 }
    else
      let header := recordOf 0x20 (k.flags s false) s.tag k.frame k.stamp
        (leBytes 1 t.crops.length ++ sliceOf b 0 3 ++ sliceOf b 4 8 ++ leBytes 1 (planeOut p).scale ++ leBytes 3 0 ++
          sliceOf b 12 2 ++ leBytes 2 0 ++ leBytes 4 fp)
      let crop : Crop :=
        { header := header, fmt := leAt b 1 1, x := leAt b 4 2, y := leAt b 6 2, w := leAt b 8 2, h := leAt b 10 2,
          plane := p, width := r.width / 2 ^ (planeOut p).scale,
          curve := if leAt b 2 1 = 0xFF then [] else ((im.curve 2 (leAt b 2 1)).map fun x : CurveRec => x.data).getD [] }
      { t with footprint := t.footprint + fp, crops := t.crops ++ [crop] }
  else { t with bad := t.bad + 1 }

/-- The requests of a CROPS source. -/
def PubFrame.crops (k : PubFrame) (im : Image) (r : Readout) (level : Nat) (s : CropTally × Chip) (src : Source) :
    CropTally × Chip :=
  if src.kind = 4 then
    let (n, c) := s.2.memRead .engine 0 src.addr 4
    let count := if poisonedEl n then 0 else min 16 (leNat (bytesOf n))
    let (bs, c) := c.memRead .engine 0 (src.addr + 4) (16 * count)
    let qs := (List.range count).map fun i => (bs.drop (16 * i)).take 16
    (qs.foldl (k.crop im r level src) s.1, c)
  else s

/-! ### Crop rows (R567) -/

/-- `n` elements of row `y` of a plane's channel, from column `x` on, tile by tile; `fuel` bounds the tiles. -/
def Chip.planeRow (o : OutDesc) (mem width channels ch y : Nat) : Nat → Nat → Nat → Chip → List MByte × Chip
  | 0, _, _, c => ([], c)
  | fuel + 1, x, n, c =>
    let k := min n (o.tw - x % o.tw)
    let (a, c) := c.memRead .engine mem (o.offset channels width ch x y) (2 * k)
    if n ≤ k then (a, c)
    else
      let (b, c) := Chip.planeRow o mem width channels ch y fuel (x + k) (n - k) c
      (a ++ b, c)

/-- An element of a plane in binary32, and whether it is poisoned. -/
def planeValue (fmt : Nat) (bs : List MByte) : Nat × Bool :=
  let v := leNat (bytesOf bs)
  (if fmt = 1 then log10In (v % 1024) else (f16In v).1, poisonedEl bs)

/-- log2 of a positive number to 46 bits below the point, cut off. -/
def log2Cut (x : Fp) : Int := x.lead * 2 ^ 46 + Int.ofNat (log2Bits 46 (x.mag * 2 ^ (160 - Nat.log2 x.mag)) 0)

/-- The output of a tone curve (R274); its rounding to an integer is a free value. -/
def toneCode (curve : List Byte) (v : Nat) : Nat :=
  let least : Fp := ⟨false, 1, -8⟩
  let x := if (ofF32 v).lt least then least else ofF32 v
  let w := (clampInt 0 (1024 * 2 ^ 40) (log2Cut x + 8 * 2 ^ 46)).toNat
  let i := w / 2 ^ 40
  let p0 := leAt curve (2 * i) 2
  let p1 := leAt curve (2 * (i + 1)) 2
  if i = 1024 then p0
  else
    let n : Int := (Int.ofNat p1 - Int.ofNat p0) * Int.ofNat (w % 2 ^ 40)
    let lo : Int := Int.ofNat p0 + n / 2 ^ 40
    if n % 2 ^ 40 = 0 then lo.toNat else (if Config.toneRoundsUp v p0 p1 then lo + 1 else lo).toNat

/-- A component of `b` bits: linear, or through the tone curve. -/
def cropCode (curve : List Byte) (b v : Nat) : Nat :=
  if curve.isEmpty then (clampInt 0 (2 ^ b - 1) ((ofF32 v).mul (Fp.ofInt (2 ^ b - 1))).toInt).toNat
  else toneCode curve v / 2 ^ (16 - b)

/-- Codes packed as CSI-2 packs RAW12, RAW14 and RAW16; codes of a last group that W does not fill are free values. -/
def packRaw (frame place b : Nat) (cs : List Nat) : List Byte :=
  let g := if b = 12 then 2 else if b = 14 then 4 else 1
  let fill := (List.range ((g - cs.length % g) % g)).map fun i => (Config.packFill frame (place + i)).toNat % 2 ^ b
  let all := cs ++ fill
  (List.range (all.length / g)).flatMap fun i =>
    let p (j : Nat) : Nat := all.getD (g * i + j) 0
    if b = 12 then [Byte.of (p 0 / 16), Byte.of (p 1 / 16), Byte.of (p 1 % 16 * 16 + p 0 % 16)]
    else if b = 14 then
      [Byte.of (p 0 / 64), Byte.of (p 1 / 64), Byte.of (p 2 / 64), Byte.of (p 3 / 64),
       Byte.of (p 1 % 4 * 64 + p 0 % 64), Byte.of (p 2 % 16 * 16 + p 1 / 4 % 16), Byte.of (p 3 % 64 * 4 + p 2 / 16 % 4)]
    else beBytes 2 (p 0)

/-- Every element of a channel's row, as values. -/
def planeValues (fmt n : Nat) (bs : List MByte) : List (Nat × Bool) :=
  (List.range n).map fun i => planeValue fmt ((bs.drop (2 * i)).take 2)

/-- A RAW row: each pixel's own colour; codes and the number of pixels sent as 0. -/
def rawRow (mosaic : Nat) (x : Crop) (y b : Nat) (chs : List (List (Nat × Bool))) : List Nat × Nat :=
  let px := (List.range x.w).map fun i => (chs.getD (nativeChannel mosaic (x.x + i) y) []).getD i (0, true)
  (px.map fun v : Nat × Bool => if v.2 then 0 else cropCode x.curve b v.1, (px.filter fun v : Nat × Bool => v.2).length)

/-- A sum of 10^−6 coefficients over doubled components, to an integer of 0 to 255. -/
def yuvCode (add : Int) (ks vs : List Int) : Byte :=
  Byte.of (clampInt 0 255 (rne (2000000 * add + (List.zipWith (· * ·) ks vs).foldl (· + ·) 0) 2000000)).toNat

/-- A YUV422 row. -/
def yuvRow (x : Crop) (chs : List (List (Nat × Bool))) : List Byte × Nat :=
  let px := (List.range x.w).map fun i =>
    let v := (List.range 3).map fun h => (chs.getD h []).getD i (0, true)
    (v.map fun e : Nat × Bool => Int.ofNat (cropCode x.curve 8 e.1), v.any fun e : Nat × Bool => e.2)
  let pix (i : Nat) : List Int × Bool := px.getD i ([], true)
  let bs := (List.range (x.w / 2)).flatMap fun i =>
    let a := pix (2 * i)
    let b := pix (2 * i + 1)
    let both := List.zipWith (· + ·) a.1 b.1
    let y (p : List Int × Bool) : Byte := if p.2 then 0 else yuvCode 0 [299000, 587000, 114000] (p.1.map (2 * ·))
    let u : Byte := if a.2 || b.2 then 0 else yuvCode 128 [-168736, -331264, 500000] both
    let v : Byte := if a.2 || b.2 then 0 else yuvCode 128 [500000, -418688, -81312] both
    [u, y a, v, y b]
  (bs, (px.filter fun p : List Int × Bool => p.2).length)

/-- Row `j` of a crop, read from its plane: its payload, and the pixels sent as code 0. -/
def Chip.cropRow (c : Chip) (frame : Nat) (x : Crop) (j : Nat) : (List Byte × Nat) × Chip :=
  let o := planeOut x.plane
  let y := x.y + j
  let n := outChannels c.mosaic
  let wanted (h : Nat) : Bool :=
    if x.fmt = 0x1E then decide (h < 3) else (List.range x.w).any fun i => nativeChannel c.mosaic (x.x + i) y == h
  let (chs, c') := Chip.gatherOver (fun h c =>
    if wanted h then
      let (bs, c) := Chip.planeRow o (leAt x.plane 0 1) x.width n h y x.w x.x x.w c
      ([planeValues o.fmt x.w bs], c)
    else ([[]], c)) (List.range n) c
  match cropBits x.fmt with
  | some b =>
    let (cs, bad) := rawRow c.mosaic x y b chs
    ((packRaw frame (8192 * y + x.w) b cs, bad), c')
  | none => (yuvRow x chs, c')

/-! ### Metadata lines (R569) -/

/-- What a publication adds to the metadata of its frame. -/
structure PubFacts where
  level : Nat
  ceiling : Nat
  priv : Bool
  records : Nat
  crops : Nat
  session : Nat
  deriving DecidableEq, Repr

/-- The FLAGS field. -/
def Chip.metaFlags (c : Chip) (m : FrameMeta) (priv report : Bool) : Nat :=
  m.flags ||| 2 * m.wrapped.toNat ||| 8 * (m.served && !m.exactBroken).toNat ||| 128 * m.privTick.toNat |||
    256 * priv.toNat ||| 512 * c.fld F.PRIV_STATUS.FAULT ||| 1024 * report.toNat

/-- The head metadata line of a frame. -/
def Chip.headLine (c : Chip) (m : FrameMeta) (p : PubFacts) : List Byte :=
  let report := (c.loop.reports.find? fun r : Nat × List Byte => r.1 == m.frame).map fun r : Nat × List Byte => r.2
  padTo 128 (leBytes 1 1 ++ leBytes 1 c.lifecycle ++ leBytes 1 p.level ++ leBytes 1 p.ceiling ++ leBytes 4 m.frame ++
    leBytes 2 (min 65535 m.wraps) ++ leBytes 1 m.epoch ++ leBytes 1 m.slave ++
    leBytes 4 (c.metaFlags m p.priv report.isSome) ++ leBytes 4 m.image ++ leBytes 4 m.expL.toNat ++ leBytes 4 m.expS.toNat ++
    leBytes 2 m.trigCount ++ leBytes 2 0 ++ leBytes 8 m.stamp ++ leBytes 8 m.trigStamp ++
    (List.range 3).flatMap (fun i => leBytes 4 (m.black.getD i 0)) ++
    (List.range 5).flatMap (fun i => leBytes 2 (m.modes.getD i 0)) ++ leBytes 2 m.vcm ++ padTo 12 (report.getD []) ++
    leBytes 4 m.ctrlLat ++ leBytes 4 p.records ++ leBytes 2 p.crops ++ leBytes 2 0 ++ leBytes 8 0 ++
    leBytes 4 p.session ++ leBytes 4 (m.counts.getD 4 0) ++
    leBytes 4 (m.counts.getD 0 0 + m.counts.getD 1 0 + m.counts.getD 2 0))

/-- The tail metadata line, from the head line and the rows cut. -/
def tailLine (head : List Byte) (cutBw cutPriv : Nat) : List Byte :=
  leBytes 1 2 ++ (head.drop 1).take 0x5F ++ leBytes 4 cutBw ++ leBytes 4 cutPriv ++ head.drop 0x68

end Sys2Proof.Machine
end

