-- ==== Sys2Proof/Machine/Egress.lean ====
section
/-!
DEFINITION. Machine/Egress.lean: sessions, keys and seals (R571 to R575), the effective level (R565), the publication of a
frame (R558 to R563) and the Glance pages (R527, R528, R564).
-/
namespace Sys2Proof.Machine

/-! ### Sessions (R571) -/

/-- Draw a prefix: again while it is 0 or the one before; `fuel` bounds the draws (log entry 41). -/
def Chip.drawPrefix (last : Nat) : Nat → Chip → Nat × Chip
  | 0, c => (if last = 1 then 2 else 1, c)
  | fuel + 1, c =>
    let (k, c) := c.draw
    let p := (Config.trng k).toNat
    if p = 0 ∨ p = last then Chip.drawPrefix last fuel c else (p, c)

/-- The device key is used in FACTORY and FIELD, the vendor test key elsewhere (R154): the code of KEY_KIND. -/
def Chip.keyKind (c : Chip) : Nat := if c.lifecycle = 2 ∨ c.lifecycle = 3 then 0 else 1

/-- The session key of a prefix. -/
def Chip.sessionKey (c : Chip) (pfx : Nat) : List Byte :=
  let ikm := if c.keyKind = 0 then otpBytes (c.otpInForce 6) 6 32 else beBytes 32 Config.vendorTestKey.toNat
  let label := "EV6050-SEAL".toList.map fun ch => Byte.of ch.toNat
  Crypto.hkdf32 ikm (beBytes 8 pfx) (label ++ beBytes 8 (serialOf (c.otpInForce 1)) ++ leBytes 1 c.lifecycle)

/-- A new prefix and key, unlike the prefix before. -/
def Chip.drawSession (c : Chip) (last : Nat) : Chip :=
  let (p, c) := Chip.drawPrefix last 16 c
  { c with egress := { c.egress with pfx := p, key := c.sessionKey p } }

/-- The session of an exit from RESET_HOLD opens (R571, log entry 41). -/
def Chip.openSession (c : Chip) : Chip :=
  let c := c.drawSession c.egress.lastPfx
  let c := (c.set F.SEAL_SESSION.VALUE 0).set F.SEAL_COUNTER.VALUE 0
  (c.set F.SEAL_INFO.LIFECYCLE c.lifecycle).set F.SEAL_INFO.KEY_KIND c.keyKind

/-- The IV of a tag. -/
def sealIv (pfx counter : Nat) : List Byte := beBytes 8 pfx ++ beBytes 4 counter

/-- A GMAC tag (R571). -/
def gmacTag (key iv aad : List Byte) : List Byte := Crypto.gcmTag key iv aad []

/-- Bytes 0x00 to 0x2F of a SESSION record (R575). -/
def Chip.sessionBody (c : Chip) (frame stamp old no cause : Nat) : List Byte :=
  (recordOf 0x32 plainFlags 0 frame stamp
    (beBytes 8 c.egress.pfx ++ beBytes 8 old ++ leBytes 4 no ++ leBytes 1 cause ++ leBytes 1 c.keyKind ++
      leBytes 1 c.lifecycle)).take 48

/-- The SESSION record of a session opened at a reset: the session opened before the timebase started. -/
def Chip.resetSession (c : Chip) (frame : Nat) : List Byte := padTo 64 (c.sessionBody frame 0 0 (c.fld F.SEAL_SESSION.VALUE) 0)

/-- The session rolls (R574): its SESSION record, and the chip. -/
def Chip.rollSession (c : Chip) (frame : Nat) : List Byte × Chip :=
  let old := c.egress
  let c := c.drawSession old.pfx
  let c := (c.countWrap F.SEAL_SESSION.VALUE 1).set F.SEAL_COUNTER.VALUE 0
  let body := c.sessionBody frame c.timebase old.pfx (c.fld F.SEAL_SESSION.VALUE) 1
  (body ++ gmacTag old.key (sealIv old.pfx 0xFFFFFFFF) body, c)

/-- Allocate a counter value. -/
def Chip.allocate (c : Chip) : Nat × Chip := (c.fld F.SEAL_COUNTER.VALUE, c.countWrap F.SEAL_COUNTER.VALUE 1)

/-- What goes out before a frame's SEAL: a session opened at a reset is announced, and a roll falls due when the frame's
values would include 0xFFFF_FFFF (R574). -/
def Chip.sessionsDue (c : Chip) (frame need : Nat) : List (List Byte) × Chip :=
  let first := if c.egress.announce then [c.resetSession frame] else []
  let c := { c with egress := { c.egress with announce := false } }
  if 0xFFFFFFFF ≤ c.fld F.SEAL_COUNTER.VALUE + need - 1 then
    let (r, c) := c.rollSession frame
    (first ++ [r], c)
  else (first, c)

/-! ### The level (R565) -/

/-- The ceiling in force. -/
def Chip.ceiling (c : Chip) : Nat := if c.keyKind = 0 then fusedCeiling (c.otpInForce 11) else 7

/-- The effective level, without and with what privacy takes. -/
def Chip.openLevel (c : Chip) : Nat := min c.ceiling (c.fld F.EGR_CTRL.LEVEL)
def Chip.effectiveLevel (c : Chip) : Nat :=
  if c.bit F.PRIV_STATUS.EFFECTIVE then min c.openLevel (c.fld F.EGR_CTRL.PRIV_LEVEL) else c.openLevel

/-! ### The Glance window (R527, R528, R564) -/

/-- SEQ of the front buffer. -/
def Chip.glanceSeq (c : Chip) : Nat := c.fld F.GLANCE_SEQ_LO.SEQ + c.fld F.GLANCE_SEQ_HI.SEQ * 0x100000000

/-- Pages of `n` records. -/
def pageCount (n : Nat) : Nat := (n + 122) / 123

/-- Page `p` of a frame's records. -/
def glancePage (frame p seq : Nat) (head sealRec : List Byte) (rs : List (List Byte)) : List Byte :=
  let here := (rs.drop (123 * p)).take 123
  let top := padTo 0x40 (leBytes 8 seq ++ leBytes 4 frame ++ leBytes 2 p ++ leBytes 2 (pageCount rs.length) ++
    leBytes 4 rs.length ++ leBytes 4 (123 * p) ++ leBytes 1 here.length)
  padTo 0x1FF8 (top ++ head ++ sealRec ++ here.flatten) ++ leBytes 8 seq

/-- A page is written to the back buffer, and the buffers change places. -/
def Chip.glanceSwap (c : Chip) (frame p : Nat) (head sealRec : List Byte) (rs : List (List Byte)) : Chip :=
  let seq := (c.glanceSeq + 1) % 2 ^ 64
  let back := 1 - c.host.front
  let c := c.memWrite 9 (0x2000 * back) ((glancePage frame p seq head sealRec rs).map MByte.clean)
  let c := { c with host := { c.host with front := back } }
  ((c.set F.GLANCE_SEQ_LO.SEQ seq).set F.GLANCE_SEQ_HI.SEQ (seq / 0x100000000)).raise F.HIF_IRQ_STATUS.PUBLISH

/-! ### OUT_QUEUE (R563) -/

/-- The free space of a queue's ring holds `n` elements; a queue without a ring is left to its pushes (log entry 42). -/
def queueHolds (d : List Byte) (n : Nat) : Bool :=
  QDesc.malformed d || QDesc.state d == 0 || QDesc.state d == 3 || decide (QDesc.fill d + n ≤ QDesc.capacity d)

/-- A frame's elements are pushed, each with the outcome that R476 gives it, or none when the free space does not hold them (R563). -/
def Chip.queueFrame (c : Chip) (q : Nat) (els : List (List Byte)) : Chip :=
  if q = 0xFFFF then c
  else
    let skip (c : Chip) : Chip := (c.raise F.EGR_EVENTS.QUEUE_SKIP).alert Code.OUT_QUEUE_SKIP noUnit 0
    let push (c : Chip) : Chip := els.foldl (fun c e => (c.qPush q (e.map MByte.clean) false).2) c
    match c.qOpen q with
    | (none, c) => push c
    | (some d, c) => if queueHolds d els.length then push c else skip c

/-! ### Frames that do not fit on CSI-2 (R543) -/

/-- The crop rows that a frame has still to send are cut for bandwidth. -/
def CsiFrame.bandCut (f : CsiFrame) : CsiFrame := { f with cutBw := f.cutBw + f.rowsLeft, noRows := true }

/-- One frame being sent, when the next is published. -/
def Chip.cropCut (c : Chip) (f : CsiFrame) : Chip :=
  if f.rowsLeft = 0 then c
  else ((c.csiEvent F.CSI_EVENTS.CROP_CUT).count F.CSI_CUT_LINES.COUNT f.rowsLeft).alert Code.CSI_CROP_CUT noUnit 0

/-- A frame is published while others are still being sent: their rows are cut, and outputs stop when a frame before the
last is among them. -/
def Chip.csiPublish (c : Chip) : Chip :=
  if c.fld F.CSI_STATUS.STATE = 2 then
    let fs := c.host.csi
    let c := fs.foldl Chip.cropCut c
    let c := { c with host := { c.host with csi := fs.map CsiFrame.bandCut } }
    if 2 ≤ fs.length then (c.csiDown.csiEvent F.CSI_EVENTS.BACKLOG).alert Code.CSI_BACKLOG noUnit 0 else c
  else c

/-! ### Packets of a frame (R540 to R542) -/

/-- Frame start and frame end. -/
def frameStart (vc frame : Nat) : Packet := ⟨vc, 0, leBytes 2 (frame % 65535 + 1)⟩
def frameEnd (vc frame : Nat) : Packet := ⟨vc, 1, leBytes 2 (frame % 65535 + 1)⟩

/-- The packets before the crops. -/
def frontPackets (frame : Nat) (head : List Byte) (rs : List (List Byte)) : List Packet :=
  let bodies := (List.range ((rs.length + 63) / 64)).map fun i => ((rs.drop (64 * i)).take 64).flatten
  [frameStart 0 frame, ⟨0, 0x12, head⟩, frameStart 1 frame] ++ bodies.map (fun b => ⟨1, 0x30, b⟩) ++
    [frameEnd 1 frame, frameStart 2 frame]

/-! ### Publication (R558 to R563) -/

/-- Units that the frame still waits for at its publish point leave their network INCOMPLETE (R101, R552). -/
def Chip.markUnfinished (c : Chip) (frame : Nat) : Chip :=
  c.plan.foldl (fun c s =>
    if s.e.lane ≠ 9 ∧ c.runFrame s.e.frameOfs = frame ∧ s.e.start ≤ c.fld F.TICK_STATUS.SLOT ∧
        c.sched.done.contains s.id = false then c.markPlanned s 1 else c) c

/-- The records before TERMINAL, WITHHELD, whether the limit was reached, and the crop requests. -/
structure Built where
  records : List (List Byte)
  withheld : Nat
  limited : Bool
  tally : CropTally
  deriving DecidableEq, Repr

/-- Records that stand before the sources' (R560, R614, R625). -/
def Chip.leadRecords (c : Chip) (k : PubFrame) : List (List Byte) × Chip :=
  let es := c.faultWindow
  let rs := c.egress.recovery.filter fun r : Recovery => r.marks k.frame
  let faults := (carriedFaults es).map fun e : LogEntry => recordOf 0x11 plainFlags 0 k.frame k.stamp e.payload
  let c := { c with egress := { c.egress with
      logFrom := c.fld F.FLT_LOG_HEAD.NEXT
      recovery := c.egress.recovery.filter fun r : Recovery => !r.marks k.frame } }
  let c := if 16 < es.length then c.alert Code.FAULT_RECORD_OVERFLOW noUnit 0 else c
  (faults ++ (rs.take 1).flatMap k.recovery, c)

/-- The frame's records are built (R558, R562, R566). -/
def Chip.buildRecords (c : Chip) (im : Image) (k : PubFrame) (level : Nat) : Built × Chip :=
  let (lead, c) := c.leadRecords k
  let (own, c) := Chip.gatherOver (k.source level) im.sources c
  let most := 16383 - lead.length
  let limited := decide (most < own.length)
  let c := if limited then (c.raise F.EGR_EVENTS.RECORD_LIMIT).alert Code.RECORD_LIMIT noUnit 0 else c
  let (t, c) := im.sources.foldl (k.crops im im.readout level) (⟨0, 0, 0, 0, []⟩, c)
  let c := if 0 < t.cap + t.bad then (c.raise F.EGR_EVENTS.CROP_REJECT).alert Code.CROP_REJECTED noUnit 0 else c
  ({ records := lead ++ own.take most, withheld := (im.sources.map (Source.withheld level)).foldl (· + ·) 0,
     limited := limited, tally := t }, c)

/-- The TERMINAL record (R561). -/
def Built.terminal (b : Built) (k : PubFrame) (level : Nat) (priv : Bool) : List Byte :=
  let byte (n : Nat) : List Byte := leBytes 1 (min 255 n)
  let flagsOr := b.records.foldl (fun a r => a ||| leAt r 1 1) 0
  recordOf 0x10 plainFlags 0 k.frame k.stamp (leBytes 4 (b.records.length + 1) ++ leBytes 4 b.withheld ++ byte b.tally.req ++
    byte b.tally.crops.length ++ byte b.tally.cap ++ byte b.tally.bad ++ leBytes 4 b.tally.footprint ++ leBytes 1 level ++
    leBytes 1 (b.limited.toNat + 2 * priv.toNat) ++ leBytes 1 flagsOr)

/-- The SEAL record (R572). -/
def Chip.sealRecord (c : Chip) (k : PubFrame) (n counter level : Nat) (aad : List Byte) : List Byte :=
  let body := (recordOf 0x30 plainFlags 0 k.frame k.stamp
    (leBytes 4 n ++ leBytes 4 counter ++ leBytes 4 (c.fld F.SEAL_SESSION.VALUE) ++ leBytes 1 c.keyKind ++
      leBytes 1 c.lifecycle ++ leBytes 1 level ++ leBytes 1 0 ++ beBytes 8 c.egress.pfx)).take 48
  body ++ gmacTag c.egress.key (sealIv c.egress.pfx counter) (aad ++ body)

/-- The frame is ready for CSI-2 (R538, R541, R573). -/
def Chip.csiReady (c : Chip) (k : PubFrame) (b : Built) (head : List Byte) (rs seals : List (List Byte))
    (cropCounter : Option Nat) : Chip :=
  if c.fld F.CSI_STATUS.STATE = 2 then
    let cropSeal := cropCounter.map fun n =>
      (recordOf 0x31 plainFlags 0 k.frame k.stamp
        (leBytes 2 b.tally.crops.length ++ leBytes 2 0 ++ leBytes 4 n ++ leBytes 4 (c.fld F.SEAL_SESSION.VALUE))).take 28
    let f : CsiFrame :=
      { frame := k.frame, front := frontPackets k.frame head rs, crops := b.tally.crops, headed := false, rows := 0,
        back := none, seals := seals, head := head, cropSeal := cropSeal, tagged := [],
        key := c.egress.key ++ sealIv c.egress.pfx (cropCounter.getD 0), rowsSent := 0, cutBw := 0, cutPriv := 0,
        poisoned := 0, noRows := false, privStop := false }
    { c with host := { c.host with csi := c.host.csi ++ [f] } }
  else c

/-- What the EGRESS registers show of a publication (R576). -/
def Chip.showPublished (c : Chip) (frame level n : Nat) (t : CropTally) (sealRec : List Byte) : Chip :=
  let limited := c.bit F.PRIV_STATUS.EFFECTIVE && decide (level < c.openLevel)
  let c := ((c.set F.EGR_STATUS.LAST_LEVEL level).setBit F.EGR_STATUS.PRIV limited).set F.EGR_LAST.FRAME frame
  let c := (c.set F.EGR_COUNTS.REJECTED (min 255 (t.cap + t.bad))).set F.EGR_COUNTS.CROPS (min 255 t.crops.length)
  let c := c.set F.EGR_COUNTS.RECORDS n
  (List.range 4).foldl (fun c i => c.set (F.SEAL_LAST_TAG.BYTES.el i) (leAt sealRec (48 + 4 * i) 4)) c

/-- The first PUBLISH entry that names a frame: it is published from the image `im`. -/
def Chip.publishFrame (c : Chip) (im : Image) (m : FrameMeta) : Chip :=
  let frame := m.frame
  let c := (c.markUnfinished frame).csiPublish
  let m := (c.egress.metas.find? fun x : FrameMeta => x.frame == frame).getD m
  let k : PubFrame := ⟨frame, m.stamp, m.marks⟩
  let level := c.effectiveLevel
  let priv := c.bit F.PRIV_STATUS.EFFECTIVE
  let (b, c) := c.buildRecords im k level
  let rs := b.records ++ [b.terminal k level priv]
  let crops := b.tally.crops.length
  let need := if crops ≠ 0 ∧ c.fld F.CSI_STATUS.STATE = 2 then 2 else 1
  let (sessions, c) := c.sessionsDue frame need
  let head := c.headLine m
    { level := level, ceiling := c.ceiling, priv := priv, records := rs.length, crops := crops,
      session := c.fld F.SEAL_SESSION.VALUE }
  let (n, c) := c.allocate
  let sealRec := c.sealRecord k rs.length n level (head ++ rs.flatten)
  let (cropCounter, c) := if need = 2 then (some c.allocate.1, c.allocate.2) else (none, c)
  let c := c.showPublished frame level rs.length b.tally sealRec
  let c := c.glanceSwap frame 0 head sealRec rs
  let c := c.queueFrame im.outQueue ([head.take 64, head.drop 64] ++ rs ++ [sealRec])
  let c := c.csiReady k b head rs (sessions ++ [sealRec]) cropCounter
  c.metaUpd frame fun m => { m with page := some 0, headLine := head, records := rs, sealRecord := sealRec }

/-- A PUBLISH entry that names a frame (R101, R559, R564). -/
def Chip.publish (c : Chip) (im : Image) (frame : Nat) : Chip :=
  match c.egress.metas.find? fun x : FrameMeta => x.frame == frame with
  | none => c
  | some m =>
    match m.page with
    | none => c.publishFrame im m
    | some p =>
      let p := min (p + 1) (pageCount m.records.length - 1)
      (c.glanceSwap frame p m.headLine m.sealRecord m.records).metaUpd frame fun m => { m with page := some p }

end Sys2Proof.Machine
end

