-- ==== Sys2Proof/Machine/Csi.lean ====
section
/-!
DEFINITION. Machine/Csi.lean: the CSI-2 outputs (R537 to R543): start and stop, and the packets of a frame one by one.
-/
namespace Sys2Proof.Machine

/-! ### Start and stop (R537 to R539) -/

/-- LANES and LANE_MBPS of CSI_CFG as they act. -/
def csiLanes (v : Nat) : Nat := min 4 (max 1 v)
def csiRate (v : Nat) : Nat := min 2500 (max 160 (v / 20 * 20))

/-- A write of CSI_CTRL.START: CSI_CFG is read then, and only then (R537); where it is not acted on it is reported (R538, log entry
119). -/
def Chip.csiStart (c : Chip) : Chip :=
  if c.dev.portsAnswer then
    if c.dev.ticking = true ∧ c.fld F.CSI_STATUS.STATE = 0 then
      let lanes := csiLanes (c.fld F.CSI_CFG.LANES)
      let c := { c with host := { c.host with
        clkCont := c.bit F.CSI_CFG.CLK_CONT, deskewOn := c.bit F.CSI_CFG.PERIODIC_DESKEW, laneFloor := min lanes c.host.laneFloor } }
      let c := (c.set F.CSI_STATUS.STATE 1).set F.CSI_STATUS.LANES lanes
      (c.set F.CSI_STATUS.MBPS (csiRate (c.fld F.CSI_CFG.LANE_MBPS))).set F.CSI_CUT_LINES.COUNT 0
    else c.csiEvent F.CSI_EVENTS.START_REJECTED
  else c

/-- CSI_START. -/
def execCsiStart (s : State) : Host.Outcome State Fault Refusal := act .csiStart (fun _ c => c.csiStart) s

/-- The outputs are off, and what was still to send is dropped. -/
def Chip.csiOff (c : Chip) : Chip :=
  ({ c with host := { c.host with csi := [] } }.set F.CSI_STATUS.STATE 0).setBit F.CLK_STATUS.PLL_C_LOCK false

/-- A write of CSI_CTRL.STOP (R539). -/
def Chip.csiStop (c : Chip) : Chip := if c.dev.open then c.csiOff else c

/-- CSI_STOP. -/
def execCsiStop (s : State) : Host.Outcome State Fault Refusal := act .csiStop (fun _ c => c.csiStop) s

/-- PLL_C_LOCK_TIMEOUT (R538). -/
def Chip.pllCTimeout (c : Chip) : Chip :=
  if c.fld F.CSI_STATUS.STATE = 1 then
    ((c.set F.CSI_STATUS.STATE 0).csiEvent F.CSI_EVENTS.START_REJECTED).alert Code.PLL_UNLOCK noUnit 0
  else c

/-- PLL_C_LOCK_TIMEOUT. -/
def execPllCLockTimeout (s : State) : Host.Outcome State Fault Refusal :=
  act .pllCLockTimeout (fun _ c => c.pllCTimeout) s

/-- A deskew sequence of `ui` unit intervals, which lane rates of 1 500 Mb/s or more take (R538, R542). -/
def Chip.deskewSent (c : Chip) (ui : Nat) : Chip :=
  { c with host := { c.host with deskew := if 1500 ≤ c.fld F.CSI_STATUS.MBPS then ui else 0 } }

/-- CSI_DESKEW_DONE: PLL_C has locked, and any initial deskew has been sent (R538). -/
def Chip.csiDeskewDone (c : Chip) : Chip :=
  if c.fld F.CSI_STATUS.STATE = 1 then
    ((c.set F.CSI_STATUS.STATE 2).setBit F.CLK_STATUS.PLL_C_LOCK true).deskewSent 32768
  else c

/-- CSI_DESKEW_DONE. -/
def execCsiDeskewDone (s : State) : Host.Outcome State Fault Refusal := act .csiDeskewDone (fun _ c => c.csiDeskewDone) s

/-! ### Packets (R541) -/

/-- The 4-byte header (R540): data identifier, word count or frame-number field, ECC. -/
def Packet.header (p : Packet) : List Byte :=
  let h := 64 * p.vc + p.dt + 0x100 * (if p.dt < 0x10 then leNat p.payload else p.payload.length)
  leBytes 3 h ++ [Byte.of (headerEcc h)]

/-- The bytes of a packet on the lanes: a short packet is its header alone, a long one ends in its CRC-16 (R540). -/
def Packet.bytes (p : Packet) : List Byte :=
  if p.dt < 0x10 then p.header else p.header ++ p.payload ++ leBytes 2 (crc16 p.payload)

/-- A packet leaves, and what stays to send; a periodic deskew burst goes before a frame's first packet, FS on VC 0 (R542). -/
def Chip.emit (c : Chip) (p : Packet) (left : List CsiFrame) : Chip :=
  let c := { c with host := { c.host with packet := some p, wire := p.bytes, csi := left } }
  c.deskewSent (if p.vc = 0 ∧ p.dt = 0 ∧ c.host.deskewOn = true then 2048 else 0)

/-- A packet goes out, and what is left of its frame. -/
def Chip.sendPacket (c : Chip) (p : Packet) (f : CsiFrame) (rest : List CsiFrame) : Chip := c.emit p (f :: rest)

/-- The CROP_SEAL record of a frame whose crops have gone (R573). -/
def CsiFrame.sealed (f : CsiFrame) : List (List Byte) :=
  match f.cropSeal with
  | none => []
  | some b =>
    let flags := plainFlags + if f.poisoned = 0 then 0 else 32
    let body := b.take 1 ++ leBytes 1 flags ++ b.drop 2 ++ leBytes 4 f.rowsSent ++ leBytes 4 f.cutBw ++
      leBytes 4 f.cutPriv ++ leBytes 4 f.poisoned ++ leBytes 4 0
    [body ++ gmacTag (f.key.take 32) (f.key.drop 32) (f.tagged ++ body)]

/-- The packets after FE on VC 2. -/
def CsiFrame.lastPackets (f : CsiFrame) : List Packet :=
  [frameStart 3 f.frame] ++ (f.seals ++ f.sealed).map (fun b => ⟨3, 0x32, b⟩) ++
    [frameEnd 3 f.frame, ⟨0, 0x12, tailLine f.head f.cutBw f.cutPriv⟩, frameEnd 0 f.frame]

/-- The first crop is done once its header has gone and no row of it will follow. -/
def CsiFrame.skipDone (f : CsiFrame) : CsiFrame :=
  match f.crops with
  | x :: xs => if f.headed && (f.noRows || f.privStop || decide (x.h ≤ f.rows)) then
      { f with crops := xs, headed := false, rows := 0 } else f
  | [] => f

/-- The next packet of the frame in front. -/
def Chip.nextPacket (c : Chip) (f : CsiFrame) (rest : List CsiFrame) : Chip :=
  match f.front with
  | p :: ps => c.sendPacket p { f with front := ps } rest
  | [] =>
    let f := f.skipDone
    match f.crops with
    | x :: _ =>
      if f.headed then
        let ((bs, bad), c) := c.cropRow f.frame x f.rows
        c.sendPacket ⟨2, x.fmt, bs⟩
          { f with rows := f.rows + 1, rowsSent := f.rowsSent + 1, poisoned := f.poisoned + bad, tagged := f.tagged ++ bs } rest
      else c.sendPacket ⟨2, 0x31, x.header⟩ { f with headed := true, rows := 0, tagged := f.tagged ++ x.header } rest
    | [] =>
      match f.back with
      | none => c.sendPacket (frameEnd 2 f.frame) { f with back := some f.lastPackets } rest
      | some [] => { c with host := { c.host with csi := rest } }
      | some [p] => (c.emit p rest).countWrap F.CSI_FRAMES.COUNT 1
      | some (p :: ps) => c.sendPacket p { f with back := some ps } rest

/-- CSI_PACKET: while outputs run, the next packet of the frame being sent goes out. -/
def Chip.csiPacket (c : Chip) : Chip :=
  if c.fld F.CSI_STATUS.STATE = 2 then
    match c.host.csi with
    | [] => c
    | f :: rest => c.nextPacket f rest
  else c

/-- CSI_PACKET. -/
def execCsiPacket (s : State) : Host.Outcome State Fault Refusal := act .csiPacket (fun _ c => c.csiPacket) s

end Sys2Proof.Machine
end

