-- ==== Sys2Proof/Machine/Ecc.lean ====
section
/-!
DEFINITION. Machine/Ecc.lean: the commands of error correction and scrubbing (R437, R444 to R446, R451 to R456).
-/
namespace Sys2Proof.Machine

/-! ### Write-backs and die loss -/

/-- A corrected SRAM byte is written back (R437). -/
def Chip.ceWriteBack (c : Chip) : Chip :=
  match c.mem.writeBack with
  | [] => c
  | (k, v) :: rest =>
    let m := { c.mem with writeBack := rest }
    { c with mem := (m.setByte k v).setCheck k (secEncode v false) }

/-- CE_WRITE_BACK. -/
def execCeWriteBack (s : State) : Host.Outcome State Fault Refusal := act .ceWriteBack (fun _ c => c.ceWriteBack) s

/-- Corrections attributed to the die in this window have reached THRESH; 0 disables (R444). -/
def Chip.overThreshold (c : Chip) (die : Nat) : Bool :=
  c.fld F.ECC_DIE_CFG.THRESH != 0 && decide (c.fld F.ECC_DIE_CFG.THRESH ≤ c.fld (F.ECC_DIE_CE.CURRENT.el die))

/-- DIE_THRESHOLD: the corrections attributed to these dies reach THRESH in one cycle (R444, R446). -/
def execDieThreshold (dies : List Nat) (s : State) : Host.Outcome State Fault Refusal :=
  act (.dieThreshold dies) (fun _ c => c.dieQualifies (dies.filter c.overThreshold) 2) s

/-- CHANNEL_LOSS: the channels of these dies fail in one cycle (R444, R446). -/
def execChannelLoss (dies : List Nat) (s : State) : Host.Outcome State Fault Refusal :=
  act (.channelLoss dies) (fun _ c => c.dieQualifies dies 3) s

/-- A write of ECC_CTRL with DECLARE (R444, R446, R459). -/
def Chip.eccDeclare (c : Chip) (key die : Nat) : Chip :=
  if key ≠ 0x4543 ∨ 10 ≤ die ∨ c.dev.portsAnswer = false then c
  else if c.dev.open && c.lostDie.isNone then c.loseDie die 4
  else c.raise F.ECC_EVENTS.DECLARE_REJECTED

/-- ECC_DECLARE. -/
def execEccDeclare (key die : Nat) (s : State) : Host.Outcome State Fault Refusal :=
  act (.eccDeclare key die) (fun _ c => c.eccDeclare key die) s

/-- A counting window ends: every die's counts move to LAST, and the next window takes its length (R444). -/
def Chip.eccWindowEnd (c : Chip) : Chip :=
  let c := (List.range 10).foldl (fun c d =>
    (c.set (F.ECC_DIE_CE.LAST.el d) (c.fld (F.ECC_DIE_CE.CURRENT.el d))).set (F.ECC_DIE_CE.CURRENT.el d) 0) c
  { c with eccWindow := max 1 (c.fld F.ECC_DIE_CFG.WINDOW_MS) }

/-- ECC_WINDOW_END. -/
def execEccWindowEnd (s : State) : Host.Outcome State Fault Refusal := act .eccWindowEnd (fun _ c => c.eccWindowEnd) s

/-! ### Scrubbing -/

/-- What a visit found: a CE, a UE, or a line skipped as never written. -/
structure Visit where
  ce : Bool
  ue : Bool
  skip : Bool
  deriving DecidableEq, Repr

/-- A visit of one Basin block (R453). -/
def Chip.scrubBlock (c : Chip) (block : Nat) : Visit × Chip :=
  let ds := (List.range 64).map fun i => (c.mem.loadByte (memKey 0 (64 * block + i))).2
  let (_, c) := Chip.sramRead false (memKey 0 (64 * block)) 64 c
  (⟨ds.contains .corrected, ds.contains .uncorrectable, false⟩, c)

/-- A visit of one Plain line (R452, R453). -/
def Chip.scrubLine (c : Chip) (a : Nat) : Visit × Chip :=
  if c.mem.mapped a then
    let rs := c.mem.lineDecode c.lostDie a
    let ce := rs.any fun r => r.outcome = .corrected
    let ue := rs.any fun r => r.outcome = .uncorrectable
    let (_, c) := c.plainReadLine .scrub a
    if ue then (⟨ce, ue, false⟩, c.alertOnce Code.SCRUB_UE noUnit 0)
    else if ce then
      (⟨ce, ue, false⟩, { c with mem := { c.mem with scrubBack := c.mem.scrubBack ++ [(a, rs.flatMap (·.syms))] } })
    else (⟨ce, ue, false⟩, c)
  else (⟨false, false, true⟩, c)

/-- The scrubber runs in these states (R451). -/
def DevState.scrubs : DevState → Bool
  | .hold | .run | .degraded | .faultStop => true
  | _ => false

/-- Advance a background pointer over a memory of `units` units (R451). -/
def Chip.scrubAdvance (c : Chip) (pointer passes : Fld) (units : Nat) : Chip :=
  if c.fld pointer + 1 < units then c.set pointer (c.fld pointer + 1)
  else (c.set pointer 0).countWrap passes 1

/-- The background Plain pointer visits its next line. -/
def Chip.scrubPlainVisit (c : Chip) (us : List Upset) : Chip :=
  let c := c.upset us
  if c.dev.scrubs && c.live F.SCRUB_CFG.PLAIN_S != 0 && (c.scrub.map (·.plain)) != some true then
    (c.scrubLine (c.fld F.SCRUB_BG_PLAIN.POINTER)).2.scrubAdvance F.SCRUB_BG_PLAIN.POINTER F.SCRUB_BG_PLAIN.PASSES 16777216
  else c

/-- SCRUB_PLAIN_VISIT. -/
def execScrubPlainVisit (us : List Upset) (s : State) : Host.Outcome State Fault Refusal :=
  act (.scrubPlainVisit us) (fun _ c => c.scrubPlainVisit us) s

/-- The background Basin pointer visits its next block. -/
def Chip.scrubBasinVisit (c : Chip) (us : List Upset) : Chip :=
  let c := c.upset us
  if c.dev.scrubs && c.live F.SCRUB_CFG.BASIN_S != 0 && (c.scrub.map (·.plain)) != some false then
    (c.scrubBlock (c.fld F.SCRUB_BG_BASIN.POINTER)).2.scrubAdvance F.SCRUB_BG_BASIN.POINTER F.SCRUB_BG_BASIN.PASSES 786432
  else c

/-- SCRUB_BASIN_VISIT. -/
def execScrubBasinVisit (us : List Upset) (s : State) : Host.Outcome State Fault Refusal :=
  act (.scrubBasinVisit us) (fun _ c => c.scrubBasinVisit us) s

/-- The oldest scrubbed line waiting is written back; the line map does not change (R453). -/
def Chip.scrubWriteBack (c : Chip) : Chip :=
  match c.mem.scrubBack with
  | [] => c
  | (a, bs) :: rest =>
    let m := { c.mem with scrubBack := rest }
    { c with mem := { m.storeLine c.lostDie a bs with scrubBack := rest } }.tallyAdd F.PLAIN_WR_LINES.LINES 1

/-- SCRUB_WRITE_BACK. -/
def execScrubWriteBack (s : State) : Host.Outcome State Fault Refusal :=
  act .scrubWriteBack (fun _ c => c.scrubWriteBack) s

/-- A write of SCRUB_T_CTRL with GO (R454). `mem` is the MEM bit written with it. -/
def Chip.scrubGo (c : Chip) (mem : Nat) : Chip :=
  if c.dev.open then
    let c := c.set F.SCRUB_T_CTRL.MEM mem
    let plain := c.bit F.SCRUB_T_CTRL.MEM
    let first := c.fld F.SCRUB_T_START.VALUE / 64
    let count := c.fld F.SCRUB_T_COUNT.VALUE % 0x2000000
    match c.scrub with
    | some _ => c.raise F.SCRUB_EVENTS.BUSY_IGNORED
    | none =>
      if count = 0 ∨ (if plain then 16777216 else 786432) < first + count then c.set F.SCRUB_T_STATUS.RESULT 3
      else
        let c := ((c.put A.SCRUB_T_STATUS 0).put A.SCRUB_T_CE 0).put A.SCRUB_T_UE 0
        let c := ((c.put A.SCRUB_T_SKIP 0).put A.SCRUB_T_FIRST 0xFFFFFFFF).put A.SCRUB_T_LAST 0xFFFFFFFF
        { c with scrub := some ⟨plain, first, count⟩ }.raise F.SCRUB_T_STATUS.BUSY
  else c

/-- SCRUB_GO. -/
def execScrubGo (mem : Nat) (s : State) : Host.Outcome State Fault Refusal :=
  act (.scrubGo mem) (fun _ c => c.scrubGo mem) s

/-- A triggered pass visits its next unit, and ends after its last (R455, R456). -/
def Chip.scrubTVisit (c : Chip) (us : List Upset) : Chip :=
  let c := c.upset us
  match c.scrub with
  | none => c
  | some p =>
    let (v, c) := if p.plain then c.scrubLine p.next else c.scrubBlock p.next
    let c := c.countWrap F.SCRUB_T_STATUS.VISITED 1
    let c := c.countWrap F.SCRUB_T_CE.VALUE v.ce.toNat
    let c := c.countWrap F.SCRUB_T_UE.VALUE v.ue.toNat
    let c := c.countWrap F.SCRUB_T_SKIP.VALUE v.skip.toNat
    let c :=
      if v.ce || v.ue then
        let c := if c.fld F.SCRUB_T_FIRST.VALUE = 0xFFFFFFFF then c.set F.SCRUB_T_FIRST.VALUE (64 * p.next) else c
        c.set F.SCRUB_T_LAST.VALUE (64 * p.next)
      else c
    let c := { c with scrub := some { p with next := p.next + 1, left := p.left - 1 } }
    if p.left ≤ 1 then c.scrubEnd 1 else c

/-- SCRUB_T_VISIT. -/
def execScrubTVisit (us : List Upset) (s : State) : Host.Outcome State Fault Refusal :=
  act (.scrubTVisit us) (fun _ c => c.scrubTVisit us) s

/-- A write of SCRUB_T_CTRL with ABORT (R456). -/
def Chip.scrubAbort (c : Chip) : Chip := if c.dev.open then c.scrubEnd 2 else c

/-- SCRUB_ABORT. -/
def execScrubAbort (s : State) : Host.Outcome State Fault Refusal := act .scrubAbort (fun _ c => c.scrubAbort) s

end Sys2Proof.Machine
end

