-- ==== Sys2Proof/Machine/Survey.lean ====
section
/-!
DEFINITION. Machine/Survey.lean: the Survey ADC (R246 to R262): triggers and scans, results, FIFO, windows and counts.
-/
namespace Sys2Proof.Machine

/-- States in which scans run (R256). -/
def DevState.surveys : DevState → Bool
  | .hold | .run | .degraded | .faultStop => true
  | _ => false

/-- The effective mask (R247, R254): the second input of a differential pair is removed. -/
def effectiveMask (mask diff : Nat) : List Nat :=
  (List.range 24).filter fun i => mask.testBit i && !(decide (i < 6) && i % 2 == 1 && diff.testBit (i / 2))

/-- A channel gives a signed result under a DIFF setting (R257). -/
def signedChannel (diff ch : Nat) : Bool := ch == 6 || ch == 7 || (decide (ch < 6) && ch % 2 == 0 && diff.testBit (ch / 2))

/-- The Survey can convert (R252). -/
def Chip.surveyUp (c : Chip) : Bool := c.dev.surveys && !c.bit F.SRV_STATUS.DISABLED

/-- The SURVEY cycle in progress, of 19.53125 ns (R251). -/
def Chip.surveyCycle (c : Chip) : Nat := c.now * 32 / 625

/-- Femtoseconds from a trigger to its hold instant (R253): two SURVEY cycles after a slot start, two to three after a write or an
FSYNC_IN edge. -/
def Chip.holdDelay (c : Chip) (src : Nat) : Nat :=
  39062500 + (if src = 2 then 0 else (Config.holdDelay c.survey.holds).toNat % 19531251)

/-- A trigger from the sources `src` (R253 to R255): bit 0 GO, bit 1 SLOT, bit 2 FSYNC. The hold and what it latches are taken with
the trigger, and the stamp is that of the hold instant (log entry 110). -/
def Chip.srvTrigger (c : Chip) (src : Nat) : Chip :=
  if !c.surveyUp then c
  else
    let chans := effectiveMask (c.fld F.SRV_MASK.MASK) (c.fld F.SRV_AIN_CFG.DIFF)
    if chans.isEmpty then c
    else if c.survey.busy then
      if (c.survey.scan.any fun x => x.cycle == c.surveyCycle) && c.fld F.SRV_SCAN_INFO.SRC &&& src == 0 then
        c.set F.SRV_SCAN_INFO.SRC (c.fld F.SRV_SCAN_INFO.SRC ||| src)
      else (c.count F.SRV_COUNTS.SKIPPED 1).raise F.SRV_IRQ_STATUS.SKIPPED
    else
      let seq := (c.fld F.SRV_STATUS.SEQ + 1) % 256
      let scan : Scan :=
        { seq := seq, cycle := c.surveyCycle, align := c.fld F.SRV_CFG.ALIGN, diff := c.fld F.SRV_AIN_CFG.DIFF, todo := chans, dropped := false }
      let stamp := c.stampAt (c.holdDelay src)
      let c := { c with survey := { c.survey with scan := some scan, busy := true, holds := c.survey.holds + 1 } }
      let c := (c.set F.SRV_STATUS.SEQ seq).set F.SRV_STATUS.BUSY 1
      let c := ((c.set F.SRV_SCAN_INFO.SEQ seq).set F.SRV_SCAN_INFO.SRC src).set F.SRV_SCAN_INFO.N chans.length
      (c.put A.SRV_STAMP_LO (Word.of stamp)).put A.SRV_STAMP_HI (Word.of (stamp / 0x100000000))

/-- SRV_GO: a write of SRV_TRIG.GO. -/
def Chip.srvGo (c : Chip) : Chip := if c.dev.open then c.srvTrigger 1 else c

/-- SRV_GO. -/
def execSrvGo (s : State) : Host.Outcome State Fault Refusal := act .srvGo (fun _ c => c.srvGo) s

/-- A slot starts: the automatic trigger SLOT (R253). -/
def Chip.srvSlot (c : Chip) (slot : Nat) : Chip :=
  let start := c.live F.SRV_SLOT.START
  let step := c.live F.SRV_SLOT.STEP
  if c.fld F.SRV_CFG.TRIG_SRC = 1 ∧ (slot = start ∨ (step ≠ 0 ∧ start < slot ∧ (slot - start) % step = 0)) then
    c.srvTrigger 2
  else c

/-! ### Results -/

/-- A channel that measures a temperature (R249). -/
def tempChannel (ch : Nat) : Bool := decide (8 ≤ ch) && decide (ch ≤ 15)

/-- A conversion of a channel, corrected: its quantity in 10^−9 of the unit of R246's table, V at the ball, rail or reference, mA in the
coil, °C at the diode. A differential pair holds both of its inputs (R247); elsewhere the second is not looked at. -/
abbrev Conversion : Type := Int × Int

/-- Code per unit of a channel's quantity, as a fraction (R246, R247, R249). -/
def transfer (diff ch : Nat) : Int × Int :=
  if ch < 6 then (if signedChannel diff ch then (20480, 1) else (40960, 1))
  else if ch = 6 then (16384, 100)
  else if ch = 7 then (20480, 3)
  else if tempChannel ch then (64, 1)
  else if ch = 16 ∨ ch = 21 then (40960, 3)
  else if ch = 17 ∨ ch = 18 then (40960, 2)
  else (40960, 1)

/-- An input of AIN0 to AIN5 within the span of its front end, and whether it lay outside (R248). -/
def ainSpan (v : Int) : Int × Bool := let x := clampInt 0 1600000000 v; (x, x != v)

/-- The conversions of a period, summed, and whether an input was clamped. -/
def conversionSum (diff ch : Nat) (cs : List Conversion) : Int × Bool :=
  let one (x : Conversion) : Int × Bool :=
    if ch < 6 then
      let a := ainSpan x.1
      if signedChannel diff ch then let b := ainSpan x.2; (a.1 - b.1, a.2 || b.2) else a
    else (x.1, false)
  ((cs.map fun x => (one x).1).foldl (· + ·) 0, cs.any fun x => (one x).2)

/-- OTP's trim of a Survey channel (R587): the offset of a diode in 1/64 K, the gain of BG_CHECK in 2^−16. -/
def Chip.surveyTrim (c : Chip) (k : Nat) : Int := trimOf (c.otpInForce 2) k

/-- The mean of four conversions after OTP's trim, as a fraction of 10^−9 units. -/
def Chip.surveyQuantity (c : Chip) (ch : Nat) (sum : Int) : Int × Int :=
  if tempChannel ch then (sum * 64 + 4000000000 * c.surveyTrim (ch - 8), 256)
  else if ch = 22 then (sum * (65536 + c.surveyTrim 8), 4 * 65536)
  else (sum, 4)

/-- The code of a result and whether it clamped (R246 to R249), from its four conversions. -/
def Chip.surveyCode (c : Chip) (diff ch : Nat) (cs : List Conversion) : Nat × Bool :=
  let s := conversionSum diff ch cs
  let q := c.surveyQuantity ch s.1
  let k := transfer diff ch
  let code := rne (q.1 * k.1) (q.2 * k.2 * 1000000000)
  if tempChannel ch then
    if q.1 < -55000000000 * q.2 ∨ 150000000000 * q.2 < q.1 then (0, true) else ((code + 16384).toNat, false)
  else if signedChannel diff ch then
    let v := clampInt (-32768) 32767 code
    (patternOf 16 v, s.2 || v != code)
  else
    let v := clampInt 0 65535 code
    (v.toNat, s.2 || v != code)

/-- The conversions of a channel period: slice (0 A, 1 B) and SURVEY cycle at which each starts (R251, R252). -/
def Chip.conversionPlan (c : Chip) : List (Nat × Nat) :=
  match c.fld F.SRV_STATUS.SLICE_OK with
  | 3 => [(0, 24), (1, 32), (0, 40), (1, 48)]
  | 2 => [(1, 0), (1, 16), (1, 32), (1, 48)]
  | 1 => [(0, 0), (0, 16), (0, 32), (0, 48)]
  | _ => []

/-- The data word of a code (R257). -/
def surveyWord (align : Nat) (signed : Bool) (code : Nat) : Word :=
  if align = 1 then Word.of (code * 65536)
  else if signed && code.testBit 15 then Word.of (code + 0xFFFF0000)
  else Word.of code

/-- A code lies outside its channel's window (R259). -/
def Chip.outsideWindow (c : Chip) (ch : Nat) (signed : Bool) (code : Nat) : Bool :=
  let lo := c.fld (F.SRV_WIN.LO.el ch)
  let hi := c.fld (F.SRV_WIN.HI.el ch)
  if signed then decide (signedOf 16 code < signedOf 16 lo) || decide (signedOf 16 hi < signedOf 16 code)
  else decide (code < lo) || decide (hi < code)

/-- A 16-bit threshold check of THR_CFG.T_CRIT against a temperature code (R632). -/
def Chip.overCritical (c : Chip) (code : Nat) : Bool :=
  decide (Int.ofNat (c.live F.THR_CFG.T_CRIT) * 64 + 16384 ≤ Int.ofNat code)

/-- What a temperature result does besides (R221, R249, R630, R632). -/
def Chip.surveyTemp (c : Chip) (ch code : Nat) (clamped : Bool) : Chip :=
  if clamped then c.alert Code.DIODE_RANGE ch 0
  else
    let s := c.survey
    let s := { s with ages := (s.ages.filter fun a : Nat × Nat => a.1 != ch) ++ [(ch, 0)],
                      temps := (s.temps.filter fun a : Nat × Nat => a.1 != ch) ++ [(ch, code)] }
    let c := { c with survey := s }
    let c := if ch = 8 then { c with pixel := { c.pixel with conv0 := some code, age0 := 0 } } else c
    let c := if ch = 9 then { c with pixel := { c.pixel with conv1 := some code, age1 := 0 } } else c
    if c.overCritical code then c.fatal Code.THERMAL_CRITICAL ch 0 else c

/-- What a result's channel does besides its delivery (R249, R250). -/
def Chip.surveyEffects (c : Chip) (ch code : Nat) (clamped : Bool) : Chip :=
  if tempChannel ch then c.surveyTemp ch code clamped
  else if ch = 22 ∧ (49152 < 100 * (Int.ofNat code - 49152).natAbs) then
    (c.raise F.SRV_IRQ_STATUS.REF_CHECK).alert Code.REF_CHECK ch 0
  else c

/-- Push a result to the FIFO, or discard it when full (R258). -/
def Chip.surveyPush (c : Chip) (e : SurveyEntry) (ch : Nat) : Chip :=
  if c.survey.fifo.length < 64 then { c with survey := { c.survey with fifo := c.survey.fifo ++ [e] } }
  else
    let c := (c.count F.SRV_COUNTS.DROPPED 1).raise F.SRV_IRQ_STATUS.OVERFLOW
    match c.survey.scan with
    | some s =>
      let c' := { c with survey := { c.survey with scan := some { s with dropped := true } } }
      if s.dropped then c' else c'.alert Code.SRV_OVERFLOW ch 0
    | none => c

/-- SURVEY_RESULT: a channel period ends, with the conversions of `Chip.conversionPlan` (R251, log entry 30). -/
def Chip.surveyResult (c : Chip) (cs : List Conversion) : Chip :=
  match c.survey.scan with
  | some s =>
    match s.todo with
    | ch :: rest =>
      let signed := signedChannel s.diff ch
      let (code, clamped) := c.surveyCode s.diff ch cs
      let out := c.fld F.SRV_WIN_EN.CH / 2 ^ ch % 2 == 1 && c.outsideWindow ch signed code
      let last := rest.isEmpty
      let tag := Word.of (s.seq * 0x1000000 + last.toNat * 0x800 + out.toNat * 0x400 + clamped.toNat * 0x200 +
        signed.toNat * 0x100 + ch)
      let data := surveyWord s.align signed code
      let c := c.surveyPush ⟨tag, data⟩ ch
      let c := c.put (A.SRV_LAST + 4 * ch) data
      let c := if out then
          ((c.put A.SRV_WIN_EVENTS (c.word A.SRV_WIN_EVENTS ||| Word.of (2 ^ ch))).raise F.SRV_IRQ_STATUS.WINDOW).alert
            Code.SRV_WINDOW ch 0
        else c
      let c := { c with survey := { c.survey with scan := c.survey.scan.map (fun s : Scan => { s with todo := rest }) } }
      let c := if last then c.raise F.SRV_IRQ_STATUS.SCAN_DONE else c
      c.surveyEffects ch code clamped
    | [] => c
  | none => c

/-- SURVEY_RESULT. -/
def execSurveyResult (cs : List (Int × Int)) (s : State) : Host.Outcome State Fault Refusal :=
  act (.surveyResult cs) (fun _ c => c.surveyResult cs) s

/-- SURVEY_BUSY_END: the tracking recovery ends, after the scan's last channel (R255). -/
def Chip.surveyBusyEnd (c : Chip) : Chip :=
  match c.survey.scan with
  | some s =>
    if s.todo.isEmpty then { c with survey := { c.survey with scan := none, busy := false } }.set F.SRV_STATUS.BUSY 0
    else c
  | none => c

/-- SURVEY_BUSY_END. -/
def execSurveyBusyEnd (s : State) : Host.Outcome State Fault Refusal := act .surveyBusyEnd (fun _ c => c.surveyBusyEnd) s

/-! ### FIFO and counts -/

/-- SRV_FLUSH (R258). -/
def Chip.srvFlush (c : Chip) : Chip := if c.dev.open then { c with survey := { c.survey with fifo := [] } } else c

/-- SRV_FLUSH. -/
def execSrvFlush (s : State) : Host.Outcome State Fault Refusal := act .srvFlush (fun _ c => c.srvFlush) s

/-- SRV_CLR_COUNTS (R261). -/
def Chip.srvClrCounts (c : Chip) : Chip := if c.dev.open then c.put A.SRV_COUNTS 0 else c

/-- SRV_CLR_COUNTS. -/
def execSrvClrCounts (s : State) : Host.Outcome State Fault Refusal := act .srvClrCounts (fun _ c => c.srvClrCounts) s

/-- SRV_FIFO_TAG and SRV_FIFO_DATA as they read (R258). -/
def Chip.srvTagWord (c : Chip) : Word := match c.survey.fifo with | e :: _ => e.tag | [] => 0x1F
def Chip.srvDataWord (c : Chip) : Word := match c.survey.fifo with | e :: _ => e.data | [] => 0

/-- A read of SRV_FIFO_DATA removes the oldest entry. -/
def Chip.srvPop (c : Chip) : Chip := { c with survey := { c.survey with fifo := c.survey.fifo.drop 1 } }

/-- SRV_FIFO_DATA_READ. -/
def execSrvFifoDataRead (s : State) : Host.Outcome State Fault Refusal :=
  act .srvFifoDataRead (fun _ c => if c.dev.portsAnswer then c.srvPop else c) s

/-- SRV_STATUS as it reads. -/
def Chip.srvStatusWord (c : Chip) : Word := withField (c.word A.SRV_STATUS) 0 7 c.survey.fifo.length

/-- SELFTEST's outcome for the Survey slices (R252). -/
def Chip.surveySelftest (c : Chip) (ok : Nat) : Chip :=
  let c := (c.set F.SRV_STATUS.SLICE_OK (ok % 4)).setBit F.SRV_STATUS.DISABLED (ok % 4 == 0)
  if ok % 4 = 3 then c else c.alert Code.SURVEY_SLICE noUnit 0

/-! ### Throttle temperatures (R630) -/

/-- The diode results' ages at a tick edge. -/
def Chip.surveyAge (c : Chip) : Chip :=
  { c with survey := { c.survey with ages := c.survey.ages.map (fun a : Nat × Nat => (a.1, min 9 (a.2 + 1))) } }

/-- The hottest fresh result of channels 10 to 15, as a code. -/
def Survey.hottest (s : Survey) : Option Nat :=
  (s.temps.filter fun t : Nat × Nat =>
    decide (10 ≤ t.1) && s.ages.any fun a : Nat × Nat => a.1 == t.1 && decide (a.2 ≤ 8)).foldl
    (fun m t => some (max (m.getD 0) t.2)) none

end Sys2Proof.Machine
end

