-- ==== Sys2Proof/Machine/Timebase.lean ====
section
/-!
DEFINITION. Machine/Timebase.lean: the timebase: its sets, the epoch count and captured reads (R544 to R547).
-/
namespace Sys2Proof.Machine

/-- TIME_SET. -/
def Chip.timeSet (c : Chip) : Nat := c.fld F.TIME_SET_LO.NS + c.fld F.TIME_SET_HI.NS * 0x100000000

/-- The timebase is set to a value in picoseconds; `src` is LAST_SRC: 0 for SET_NOW, 1 for an FSYNC_IN edge (R546, R547). -/
def Chip.setEpoch (c : Chip) (ps src : Nat) : Chip :=
  let c := { c with timebase := ps / 1000 % 0x10000000000000000
                    host := { c.host with timeFrac := ps % 1000, setAt := some (c.now, src) } }
  ((c.countWrap F.TIME_STATUS.EPOCH 1).set F.TIME_STATUS.LAST_SRC src).raise F.HIF_IRQ_STATUS.TIME

/-- SET_NOW: TIME_CTRL.SET_NOW. Where an armed edge has just acted in the same cycle, SET_NOW takes its place: it is the one set, and
the epoch set is armed again (R546; the nanosecond stands for the cycle, log entry 100). -/
def Chip.setNow (c : Chip) : Chip :=
  if !c.dev.open then c
  else if c.host.setAt = some (c.now, 1) then
    let c := { c with timebase := c.timeSet % 0x10000000000000000
                      host := { c.host with timeFrac := 0, setAt := some (c.now, 0) } }
    (c.set F.TIME_STATUS.LAST_SRC 0).raise F.TIME_STATUS.ARMED
  else c.setEpoch (1000 * c.timeSet) 0

/-- SET_NOW. -/
def execSetNow (s : State) : Host.Outcome State Fault Refusal := act .setNow (fun _ c => c.setNow) s

/-- ARM: TIME_CTRL.ARM. -/
def Chip.armEpoch (c : Chip) : Chip := if c.dev.open then c.raise F.TIME_STATUS.ARMED else c

/-- ARM. -/
def execArm (s : State) : Host.Outcome State Fault Refusal := act .arm (fun _ c => c.armEpoch) s

/-- DISARM: TIME_CTRL.DISARM. -/
def Chip.disarm (c : Chip) : Chip := if c.dev.open then c.disarmEpoch else c

/-- DISARM. -/
def execDisarm (s : State) : Host.Outcome State Fault Refusal := act .disarm (fun _ c => c.disarm) s

/-- A filtered FSYNC_IN edge at `ps` takes an armed set, unless SET_NOW has acted in the same cycle (R546). -/
def Chip.edgeSetsTime (c : Chip) (ps : Nat) : Chip :=
  if c.bit F.TIME_STATUS.ARMED && c.host.setAt != some (c.now, 0) then
    (c.setEpoch (1000 * c.timeSet + (1000 * c.now - ps)) 1).disarmEpoch
  else c

/-- The upper half that a read of TIME_LO holds for a port. -/
def Chip.holdTime (c : Chip) (p : Port) (v : Option Word) : Chip :=
  match p with
  | .xspi => { c with host := { c.host with timeX := v } }
  | .i3c => { c with host := { c.host with timeI := v } }

/-- What a port holds for its next read of TIME_HI. -/
def Chip.heldTime (c : Chip) : Port → Option Word
  | .xspi => c.host.timeX
  | .i3c => c.host.timeI

/-- A read of TIME_LO by a port captures the timebase (R545). -/
def Chip.captureTime (c : Chip) (p : Port) : Chip := c.holdTime p (some (Word.of (c.timebase / 0x100000000)))

/-- The bytes that a port returns. -/
def Chip.answer (c : Chip) (p : Port) (bs : List Byte) : Chip :=
  match p with
  | .xspi => { c with host := { c.host with outX := bs } }
  | .i3c => { c with host := { c.host with outI := bs, nack := false } }

/-- TIME_LO_READ: bits [31:0] are returned, and bits [63:32] held. -/
def Chip.timeLoRead (c : Chip) (p : Port) : Chip :=
  if c.dev.portsAnswer then (c.captureTime p).answer p (leBytes 4 (c.timebase % 0x100000000)) else c

/-- TIME_LO_READ. -/
def execTimeLoRead (p : Port) (s : State) : Host.Outcome State Fault Refusal :=
  act (.timeLoRead p) (fun _ c => c.timeLoRead p) s

end Sys2Proof.Machine
end

