-- ==== Sys2Proof/Machine/RegWrite.lean ====
section
/-!
DEFINITION. Machine/RegWrite.lean: how a write changes a register (R12, R17 to R22), and what writes do to the blocks that an
image may give defaults (R171). Fields are stored before the actions of the same write start, and actions start from the
lowest bit upward (log entry 50).
-/
namespace Sys2Proof.Machine

/-- A word as a write of `v` leaves it: RW bits take `v`, a 1 clears W1C bits, and every other bit stays (R17). -/
def RegRow.stored (r : RegRow) (old v : Word) : Word :=
  (old &&& ~~~(Word.of r.rw) &&& ~~~(Word.of r.w1c &&& v)) ||| (v &&& Word.of r.rw)

/-- Store a write in the word at `a`; a write to a reserved word has no effect (R14, R658). -/
def Chip.storeWord (c : Chip) (a : Nat) (v : Word) : Chip :=
  match rowOf a with
  | some r => c.put a (r.stored (c.word a) v)
  | none => c

/-- A written action bit. -/
def acts (v : Word) (f : Fld) : Bool := fieldOf v f.lo f.w != 0

/-- Start an action if its bit is written 1. -/
def Chip.when_ (c : Chip) (b : Bool) (f : Chip → Chip) : Chip := if b then f c else c

/-! ### Blocks that REG_DEFAULTS may name -/

/-- A write to an exposure register: ignored while the loop owns the exposure (R207). -/
def Chip.exposureWrite (c : Chip) (a : Nat) (v : Word) : Chip :=
  if c.liveBit F.PIX_CTRL.EXP_OWNER then (c.raise F.PIX_EVENTS.EXP_OWNER).alert Code.EXP_OWNER noUnit 0
  else c.storeWord a v

/-- A write to a register of Vale `n` (R323, R403); a fenced Vale ignores it (R618). -/
def Chip.valeWrite (c : Chip) (n a : Nat) (v : Word) : Chip :=
  if c.fenced n then c
  else if a = A.VALE_CLK + 0x1000 * n then c.reqMhzWrite n (fieldOf v 0 10)
  else (c.storeWord a v).when_ (a == A.VALE_EVENTS + 0x1000 * n && acts v F.VALE_EVENTS.CLR_PEAK) fun c => c.clrPeak n

/-- A write to VCM_CTRL (R503 to R505). -/
def Chip.vcmCtrlWrite (c : Chip) (v : Word) : Chip :=
  let c := c.vcmRangeWrite (acts v F.VCM_CTRL.RANGE)
  if acts v F.VCM_CTRL.ENABLE then c.vcmEnable else c.vcmDisable

/-- A host write to a register of the blocks of R171. -/
def Chip.blockWrite (c : Chip) (fz : Fuses) (a : Nat) (v : Word) : Chip :=
  if a = A.EXP_LONG ∨ a = A.EXP_SHORT ∨ a = A.EXP_GAIN then c.exposureWrite a v
  else if a = A.TER_SEL then c.terSelWrite (fieldOf v 0 9) (fieldOf v 16 3)
  else if a = A.SRV_TRIG then
    ((c.when_ (acts v F.SRV_TRIG.GO) Chip.srvGo).when_ (acts v F.SRV_TRIG.FLUSH) Chip.srvFlush).when_
      (acts v F.SRV_TRIG.CLR_COUNTS) Chip.srvClrCounts
  else if a = A.SAD_EVENTS then (c.storeWord a v).when_ (acts v F.SAD_EVENTS.CLR_PEAK) fun c => c.clrPeak 6
  else if 0x8000 ≤ a ∧ a < 0xE000 then c.valeWrite ((a - 0x8000) / 0x1000) a v
  else if a = A.VCM_CTRL then c.vcmCtrlWrite v
  else if a = A.VCM_TARGET then c.vcmTargetWrite (signedOf 24 v.toNat)
  else if a = A.LENS_CAL_PROG then c.when_ (acts v F.LENS_CAL_PROG.GO) fun c => c.lensProgram fz (fieldOf v 16 16)
  else if a = A.PRIV_CFG then c.privCfgWrite (fieldOf v 0 8)
  else if a = A.PRIV_CTRL then c.when_ (acts v F.PRIV_CTRL.CLEAR) fun c => c.privClear (fieldOf v 16 16)
  else if a = A.CSI_CTRL then
    (c.when_ (acts v F.CSI_CTRL.START) Chip.csiStart).when_ (acts v F.CSI_CTRL.STOP) Chip.csiStop
  else if a = A.TIME_CTRL then
    ((c.when_ (acts v F.TIME_CTRL.ARM) Chip.armEpoch).when_ (acts v F.TIME_CTRL.DISARM) Chip.disarm).when_
      (acts v F.TIME_CTRL.SET_NOW) Chip.setNow
  else c.storeWord a v

/-! ### REG_DEFAULTS (R171) -/

/-- An address that an entry may name: a defined register of the blocks listed. -/
def defaultsMayName (a : Nat) : Bool :=
  (rowOf a).isSome && ((decide (0x3000 ≤ a) && decide (a < 0xE000)) || (decide (0x11000 ≤ a) && decide (a < 0x14000)) ||
    (decide (0x16000 ≤ a) && decide (a < 0x17000)))

/-- The register has a field that the host may write. -/
def hostMayWrite (a : Nat) : Bool :=
  match rowOf a with
  | some r => (r.rw ||| r.w1c ||| r.hid) != 0
  | none => false

/-- One entry is admitted. -/
def defaultOk (a : Nat) (v : Word) : Bool :=
  defaultsMayName a && hostMayWrite a && !(a == A.VCM_CTRL && acts v F.VCM_CTRL.ENABLE) &&
    !(a == A.CSI_CTRL && acts v F.CSI_CTRL.START)

/-- One entry is applied; VCM_CTRL takes its RANGE only. -/
def Chip.applyDefault (c : Chip) (fz : Fuses) (e : Nat × Word) : Chip :=
  if e.1 = A.VCM_CTRL then c.vcmRangeWrite (acts e.2 F.VCM_CTRL.RANGE) else c.blockWrite fz e.1 e.2

/-- The entries are applied in order. At the end of LOAD they act as writes in HOLD, the state that follows (log entry 51). -/
def Chip.applyDefaults (c : Chip) (fz : Fuses) (es : List (Nat × Word)) : Chip :=
  if c.dev = .load then { es.foldl (fun c e => c.applyDefault fz e) { c with dev := .hold } with dev := .load }
  else es.foldl (fun c e => c.applyDefault fz e) c

end Sys2Proof.Machine
end

