-- ==== Sys2Proof/Machine/AdmitSched.lean ====
section
/-!
DEFINITION. Machine/AdmitSched.lean: admission checks (R186, R187) of the schedule tables: formats (R70, R106 to R109), the rules
of R105 and R103, windows and budgets (R104, R167, R188, R332). A check answers the failing code and its DETAIL.
-/
namespace Sys2Proof.Machine

/-! ### Checks -/

/-- The load codes of R187. -/
abbrev Ld.NO_MAGIC : Nat := 0x01
abbrev Ld.BAD_HEADER : Nat := 0x02
abbrev Ld.KEY_POLICY : Nat := 0x03
abbrev Ld.KEY_HASH : Nat := 0x04
abbrev Ld.BAD_TRAILER : Nat := 0x05
abbrev Ld.ROLLBACK : Nat := 0x06
abbrev Ld.MOSAIC : Nat := 0x07
abbrev Ld.STEPPING : Nat := 0x08
abbrev Ld.BAD_DIRECTORY : Nat := 0x09
abbrev Ld.GCM_TAG : Nat := 0x0A
abbrev Ld.TRUNCATED : Nat := 0x0B
abbrev Ld.ABORTED : Nat := 0x0C
abbrev Ld.TIMEOUT : Nat := 0x0D
abbrev Ld.SIGNATURE : Nat := 0x0E
abbrev Ld.VDDL : Nat := 0x10
abbrev Ld.RATE : Nat := 0x11
abbrev Ld.SCHED_FORMAT : Nat := 0x12
abbrev Ld.UNIT_REF : Nat := 0x13
abbrev Ld.SCHED_OVERLAP : Nat := 0x14
abbrev Ld.SCHED_RANGE : Nat := 0x15
abbrev Ld.SCHED_AFTER : Nat := 0x16
abbrev Ld.SCHED_ROW_GATE : Nat := 0x17
abbrev Ld.SCHED_SPILL : Nat := 0x18
abbrev Ld.LOOP_UNBOUNDED : Nat := 0x19
abbrev Ld.CMAX_BOUND : Nat := 0x1A
abbrev Ld.CMAX_WINDOW : Nat := 0x1B
abbrev Ld.CONTROL_LANE : Nat := 0x1C
abbrev Ld.CONTROL_BUDGET : Nat := 0x1D
abbrev Ld.PLAIN_REGION : Nat := 0x1E
abbrev Ld.PLAIN_UNWRITTEN : Nat := 0x1F
abbrev Ld.MEMORY_LOAD : Nat := 0x20
abbrev Ld.REG_DEFAULT : Nat := 0x21
abbrev Ld.QUEUE_TABLE : Nat := 0x22
abbrev Ld.HOT_MISMATCH : Nat := 0x23
abbrev Ld.HOT_OVERLAP : Nat := 0x24

/-- A check: none when it passes, else its code and DETAIL. -/
abbrev Check := Option (Nat × Nat)

/-- DETAIL of a failure that no index names (R194). -/
abbrev noDetail : Nat := 0xFFFF

/-- A condition that a check needs. -/
def need (ok : Bool) (code detail : Nat) : Check := if ok then none else some (code, detail)

/-- The first failing item of a list, checked in order. -/
def eachOf {α : Type} (xs : List α) (f : α → Nat → Check) : Check := xs.zipIdx.findSome? fun x => f x.1 x.2

/-- The first failing check of a list. -/
def firstOf (cs : List Check) : Check := cs.findSome? id

/-- Every byte is 0. -/
def allZero (bs : List Byte) : Bool := bs.all fun b : Byte => b == 0

/-- Two ranges, each a start and a length, have a byte in common. -/
def overlap (a b : Nat × Nat) : Bool := decide (a.1 < b.1 + b.2) && decide (b.1 < a.1 + a.2) && decide (0 < a.2) && decide (0 < b.2)

/-- No two ranges of a list have a byte in common. -/
def disjoint : List (Nat × Nat) → Bool
  | [] => true
  | r :: rs => (rs.all fun s => !overlap r s) && disjoint rs

/-- A range lies in the Basins from 4 upward: offsets 0x0020_0000 to 0x02FF_FFFF. -/
def inBasins (r : Nat × Nat) : Bool := decide (0x200000 ≤ r.1) && decide (r.1 + r.2 ≤ 0x3000000)

/-! ### Tables -/

/-- A table of an image: its section's directory index and instance. -/
structure TableRef where
  idx : Nat
  inst : Nat
  table : Table
  deriving DecidableEq, Repr

/-- Every table in directory order. -/
def Image.tableRefs (im : Image) : List TableRef :=
  (im.sections.zipIdx.filter fun e => e.1.ty == Ty.SCHEDULE).map fun e => ⟨e.2, e.1.inst, Table.ofBytes e.1.body⟩

/-- RATE and MODE codes (R70). -/
def Image.checkRate (im : Image) : Check :=
  eachOf im.tableRefs fun t _ => need (decide (t.table.rate ≤ 4) && decide (t.table.mode < 2)) Ld.RATE t.idx

/-- Header of a table (R107, R108). -/
def TableRef.headerOk (t : TableRef) (im : Image) : Bool :=
  let h := t.table
  let p := im.primary
  let size := (im.bodyAt t.idx).length
  decide (32 ≤ size) && size == 32 + 16 * h.count && decide (1 ≤ h.count) && decide (h.count ≤ 8192) && decide (h.spill ≤ 4096) &&
    decide (h.fsoOffset ≤ 4095) && decide (1 ≤ h.holdover) && decide (1 ≤ h.fsyncWait) && allZero h.reserved &&
    h.fallback == t.inst && (h.valeMhz.all fun m => m == 0 || (decide (200 ≤ m) && decide (m ≤ 1000))) &&
    h.rate == p.rate && h.mode == p.mode && h.spill == p.spill && (decide (5 < t.inst) || h.mhz t.inst == 0)

/-- One entry of a table (R99, R101, R108, R109). -/
def Entry.formatOk (e : Entry) (h : Table) (last : Option Entry) : Bool :=
  (match last with
   | none => true
   | some p => decide (p.start < e.start) || (p.start == e.start && decide (p.lane ≤ e.lane))) &&
    decide (e.lane ≤ 9) && decide (1 ≤ e.length) && decide (e.length ≤ 4096) && decide (e.flags < 2) &&
    (e.rowGate == 0xFFFF || decide (e.rowGate ≤ 6143)) && (e.after == 0xFFFF || decide (e.after < h.count)) &&
    decide (e.replay ≤ e.length) &&
    (if 1 ≤ e.lane ∧ e.lane ≤ 6 then h.mhz (e.lane - 1) != 0 else e.replay == 0) &&
    (e.lane != 9 || (e.length == 1 && e.cMax == 0 && e.unitId == 0))

/-- SCHED_FORMAT of one SCHEDULE section. -/
def TableRef.checkFormat (t : TableRef) (im : Image) : Check :=
  (need (t.headerOk im) Ld.SCHED_FORMAT t.idx) <|>
    eachOf t.table.entries fun e i =>
      need (e.formatOk t.table (if i = 0 then none else t.table.entries[i - 1]?)) Ld.SCHED_FORMAT i

/-! ### R105 -/

/-- Check every entry of every table, in table order. -/
def Image.eachEntry (im : Image) (f : TableRef → Entry → Nat → Check) : Check :=
  eachOf im.tableRefs fun t _ => eachOf t.table.entries (f t)

/-- No two entries of a lane overlap. -/
def Image.checkOverlap (im : Image) : Check :=
  im.eachEntry fun t e i =>
    need ((t.table.entries.take i).all fun p => p.lane != e.lane || !overlap (p.start, p.length) (e.start, e.length))
      Ld.SCHED_OVERLAP i

/-- No window runs past slot 4 095. -/
def Image.checkRange (im : Image) : Check := im.eachEntry fun _ e i => need (decide (e.stop ≤ 4096)) Ld.SCHED_RANGE i

/-- AFTER. A spill entry's predecessor that serves its frame with FRAME_OFS 0 ran in the tick before, and ended there. -/
def Image.checkAfter (im : Image) : Check :=
  im.eachEntry fun t e i =>
    if e.after = 0xFFFF then none
    else match t.table.entries[e.after]? with
      | none => some (Ld.SCHED_AFTER, i)
      | some p =>
        need (e.after != i && (p.frameOfs != e.frameOfs || decide (e.after < i)) &&
          ((e.frameOfs == 1 && p.frameOfs == 0) || decide (p.stop ≤ e.stop))) Ld.SCHED_AFTER i

/-- Declared readout end of an entry's gating row, in cycles of 2 457.6 MHz from the tick edge; of frame N−1 a tick less. -/
def Image.gateEnd (im : Image) (e : Entry) : Int :=
  Int.ofNat (im.readout.rowEndVco e.rowGate) - (if e.frameOfs = 1 then Int.ofNat (4096 * slotCycles im.primary.rate * 20) else 0)

/-- ROW_GATE; in BIN2 no row from 3 072 on (R201). -/
def Image.checkRowGate (im : Image) : Check :=
  im.eachEntry fun _ e i =>
    if e.rowGate = 0xFFFF then none
    else need (!(im.readout.binned && decide (3072 ≤ e.rowGate)) &&
      decide (im.gateEnd e ≤ Int.ofNat ((e.stop - 1) * slotCycles im.primary.rate * 20))) Ld.SCHED_ROW_GATE i

/-- The spill limit, and the PUBLISH entry of an image without spill work (R103). -/
def Image.checkSpill (im : Image) : Check :=
  eachOf im.tableRefs fun t _ =>
    (eachOf t.table.entries fun e i => need (e.frameOfs == 0 || decide (e.stop ≤ t.table.spill)) Ld.SCHED_SPILL i) <|>
      if t.table.spill ≠ 0 then none
      else
        let results := t.table.entries.zipIdx.filter fun x => x.1.cls == 1 && x.1.lane != 9
        let last := results.foldl (fun (b : Option (Nat × Nat)) x =>
          match b with
          | none => some (x.1.stop, x.2)
          | some q => if q.1 ≤ x.1.stop then some (x.1.stop, x.2) else b) none
        let stop := (last.map (·.1)).getD 0
        need (t.table.entries.any fun e => e.lane == 9 && e.frameOfs == 0 && decide (stop ≤ e.start)) Ld.SCHED_SPILL
          ((last.map (·.2)).getD t.idx)

/-! ### Cycles and windows -/

/-- Clock of a lane for admission, in MHz (R94). -/
def Table.laneMhz (t : Table) (lane : Nat) : Nat := if lane = 0 then 800 else if lane ≤ 6 then t.mhz (lane - 1) else 1200

/-- Division rounded up. -/
def ceilDiv (n d : Nat) : Nat := (n + d - 1) / d

/-- BOUND of a unit at a clock (R167). -/
def UnitRec.bound (u : UnitRec) (f : Nat) : Nat :=
  (u.passes.map fun p => p.iterMax * (p.compute + ceilDiv (p.lines * 3 * f) 1000)).foldl (fun a b : Nat => a + b) 0 +
    u.passCount * ceilDiv f 2

/-- The window check of R104, multiplied out: a C_MAX at `f` MHz fits `slots` usable slots less the guard time. -/
def fitsWindow (cMax f slots rate : Nat) (slaved : Bool) : Bool :=
  decide (cMax * 1000 * 122880 + 64 * 122880 * f ≤ slots * slotCycles rate * (if slaved then 995 else 1000) * 1000 * f)

/-- R104. -/
def Image.checkWindow (im : Image) : Check :=
  im.eachEntry fun t e i =>
    if e.lane = 9 then none
    else need (fitsWindow e.cMax (t.table.laneMhz e.lane) (e.length - e.replay) t.table.rate (t.table.mode == 1)) Ld.CMAX_WINDOW i

/-! ### The Control class -/

/-- Control entries run on the Saddle, after Saddle entries only (R105, R332). -/
def Image.checkControlLane (im : Image) : Check :=
  im.eachEntry fun t e i =>
    if e.cls ≠ 0 then none
    else need (e.lane == 0 && (e.after == 0xFFFF || ((t.table.entries[e.after]?).any fun p => p.lane == 0))) Ld.CONTROL_LANE i

/-- R188, table by table. -/
def Image.checkBudget (im : Image) : Check :=
  im.eachEntry fun t e i =>
    if e.cls ≠ 0 then none
    else
      let sum := (((t.table.entries.take (i + 1)).filter fun p => p.cls == 0).map fun p => p.length).foldl (fun a b : Nat => a + b) 0
      let late := Int.ofNat (e.stop * slotCycles im.primary.rate * 20) - im.gateEnd e
      let fits := if t.table.mode = 1 then decide (late * 10050 ≤ 1100 * 24576 * 1000) else decide (late * 10 ≤ 1100 * 24576)
      need (decide (sum ≤ im.ctrlBudget) && decide (im.ctrlBudget ≤ 1024) && e.rowGate != 0xFFFF && fits) Ld.CONTROL_BUDGET i

end Sys2Proof.Machine
end

