-- ==== Sys2Proof/Machine/AdmitBlocks.lean ====
section
/-!
DEFINITION. Machine/AdmitBlocks.lean: the SCHED_FORMAT checks of the blocks' sections: READOUT (R210), FRONT (R288, R289), CURVES
(R172, R274, R500), ROUTING (R473), STATE_MACHINE (R365, R492, R493, R553, R563), EXPERTS and the Mover's parameter blocks (R351
to R353, R360, R367, R372, R374).
-/
namespace Sys2Proof.Machine

/-! ### READOUT, ROUTING -/

/-- The READOUT section passes R210. -/
def Image.readoutOk (im : Image) : Bool :=
  let b := im.body Ty.READOUT 0
  let r := im.readout
  b.length == 16 && allZero (b.drop 8) && decide (r.mode ≤ 1) && decide (r.sampleSet ≤ 3) &&
    decide (256 * r.phases ≤ r.rowTime) && decide (r.rowTime ≤ 16384) && decide (r.readStart ≤ 4095) &&
    (if r.short then decide (1 ≤ r.lead) && decide (r.lead ≤ 4095) else r.lead == 0) &&
    decide (r.startVco + r.rowTimes * r.rowTime * 12 ≤ 4096 * slotCycles r.rate * 20) && decide (16 ≤ r.expMaxL) &&
    (!r.short || decide (16 ≤ r.expMaxS))

/-- The ROUTING section passes R473. -/
def routingOk (b : List Byte) : Bool :=
  let w (i : Nat) : Bool := decide (1 ≤ leAt b i 1) && decide (leAt b i 1 ≤ 15)
  b.length == 16 && leAt b 0 2 == 1 && decide (leAt b 2 1 ≤ 15) && leAt b 3 1 == 0 && w 4 && w 5 && w 6 && allZero (b.drop 7)

/-! ### FRONT -/

/-- A tile layout is within R288, for a full-scale height. -/
def OutDesc.shapeOk (o : OutDesc) (rows : Nat) : Bool :=
  decide (o.scale ≤ 2) && decide (o.fmt ≤ 1) && decide (o.tile % 16 ≤ 3) && decide (o.tile / 16 ≤ 3) && decide (1 ≤ o.nbands) &&
    decide (o.nbands ≤ rows / 2 ^ o.scale / o.th)

/-- Bytes of an output's ring slots. -/
def OutDesc.ringBytes (o : OutDesc) (mosaic width : Nat) : Nat :=
  o.nbands * (width / 2 ^ o.scale / o.tw) * o.tileBytes (outChannels mosaic)

/-- Bytes of the shading map. -/
abbrev shadingBytes : Nat := 25480

/-- The Basin ranges that a FRONT section names (R289): short store, statistics buffers, outputs. -/
def Image.frontRanges (im : Image) (mosaic : Nat) : List (Nat × Nat) :=
  let r := im.readout
  (if r.short then [(leAt im.front 0x10 4, (r.lead + 1) * (2 * r.width))] else []) ++
    (leAt im.front 0x14 4, 2 * 32 * ((r.width / 64) * (r.rows / 64))) ::
    im.outs.map fun o => (o.base, o.ringBytes mosaic r.width)

/-- The FRONT section passes R288 and R289. -/
def Image.frontOk (im : Image) (mosaic : Nat) : Bool :=
  let b := im.front
  let r := im.readout
  let outs := leAt b 2 1
  let n := leAt b 4 2
  let shading := leAt b 0x0C 4
  let parts := (0, 64) :: (if n = 0 then [] else [(leAt b 8 4, 4 * n)]) ++ (if shading = 0 then [] else [(shading, shadingBytes)])
  let ranges := im.frontRanges mosaic
  decide (64 ≤ b.length) && leAt b 0 2 == 1 && (outs == 1 || outs == 2) && leAt b 3 1 == 0 && decide (n ≤ 8192) &&
    leAt b 6 2 == 0 && (n != 0 || leAt b 8 4 == 0) && (r.short || leAt b 0x10 4 == 0) && allZero (sliceOf b 0x18 8) &&
    (parts.all fun p => p.1 % 4 == 0 && decide (p.1 + p.2 ≤ b.length)) && disjoint parts &&
    ((recordsOf 4 (sliceOf b (leAt b 8 4) (4 * n))).all fun w => decide (leAt w 0 2 < 0x2000) && decide (leAt w 2 2 < 6144)) &&
    (im.outs.all fun o => o.shapeOk r.rows && allZero o.rsv) && (outs == 2 || allZero (sliceOf b 0x30 16)) &&
    (ranges.all fun g => g.1 % 64 == 0 && inBasins g) && disjoint ranges

/-! ### CURVES -/

/-- Highest INDEX and BPP of a curve kind. -/
def curveKind : Nat → Option (Nat × Nat)
  | 1 => some (15, 3)
  | 2 => some (3, 2)
  | 3 => some (0, 2)
  | _ => none

/-- The records of a CURVES section from record `i` on; `seen` holds the kinds and indices before it. -/
def curvesCheck : Nat → List (Nat × Nat) → Nat → List Byte → Check
  | _, _, _, [] => none
  | 0, _, i, _ => some (Ld.SCHED_FORMAT, i)
  | fuel + 1, seen, i, b =>
    let key := (leAt b 0 1, leAt b 1 1)
    let n := leAt b 2 2 * leAt b 4 1
    let pad := (n + 3) / 4 * 4
    let ok := decide (8 + pad ≤ b.length) && leAt b 2 2 == 1025 && leAt b 5 3 == 0 &&
      (match curveKind key.1 with
       | none => false
       | some k => decide (key.2 ≤ k.1) && leAt b 4 1 == k.2) &&
      !seen.contains key && allZero (sliceOf b (8 + n) (pad - n))
    if ok then curvesCheck fuel (key :: seen) (i + 1) (b.drop (8 + pad)) else some (Ld.SCHED_FORMAT, i)

/-! ### STATE_MACHINE -/

/-- A policy of R365 is within its ranges. -/
def Image.policyOk (im : Image) (p : Policy) : Bool :=
  match im.layerRecs[p.layer]? with
  | none => false
  | some r =>
    let seats := r.seats.length
    decide (p.minRep * r.e ≤ seats) && decide (max 1 p.minRep ≤ p.maxRep) && decide (p.maxRep ≤ seats) &&
      decide (1 ≤ p.moveMax) && decide (p.moveMax ≤ seats) && decide (8 ≤ p.period) && decide (p.period ≤ 4096) && p.rsv == 0

/-- STATE_MACHINE instance 0: every record in range, one per layer at most. -/
def Image.policiesOk (im : Image) : Bool :=
  (im.body Ty.STATE_MACHINE 0).length % 16 == 0 && im.policies.all im.policyOk &&
    decide ((im.policies.map fun p => p.layer).Nodup)

/-- Control-class entries of every table. -/
def Image.controlEntries (im : Image) : List Entry :=
  im.tableRefs.flatMap fun t => t.table.entries.filter fun e => e.cls == 0

/-- STATE_MACHINE instance 1 (R492, R493). -/
def Image.loopOk (im : Image) : Bool :=
  let b := im.body Ty.STATE_MACHINE 1
  let n := leAt b 2 1
  let bs := im.bindings
  b.length == 8 + 8 * n && leAt b 0 2 == 1 && decide (1 ≤ n) && decide (n ≤ 8) && leNat (sliceOf b 3 5) == 0 &&
    (bs.all fun x => decide (x.unitId < unitCount (im.body Ty.SADDLE_UNITS 0)) && decide (1 ≤ x.nMax) && decide (x.nMax ≤ 8) &&
      x.rsv == 0) &&
    decide ((bs.map fun x => x.unitId).Nodup) && decide ((bs.map fun x => x.queue).Nodup) &&
    (im.controlEntries.all fun e => bs.any fun x => x.unitId == e.unitId)

/-- Descriptor that an image gives a queue. -/
def Image.queueDesc (im : Image) (q : Nat) : Option (List Byte) := (im.queues.find? fun x => x.1 == q).map (·.2)

/-- OUT_QUEUE passes R563. -/
def Image.outQueueOk (im : Image) : Bool :=
  im.outQueue == 0xFFFF ||
    match im.queueDesc im.outQueue with
    | none => false
    | some d => QDesc.state d == 1 && QDesc.cls d == 1 && QDesc.es d == 3 && QDesc.owner d == 0 && QDesc.full d == 0

/-- A plane descriptor (R553). -/
def Image.planeOk (im : Image) (mosaic : Nat) (b : List Byte) : Bool :=
  let o := planeOut b
  let r := im.readout
  let range := (o.base, o.ringBytes mosaic r.width)
  leAt b 5 3 == 0 && leAt b 12 4 == 0 && o.shapeOk r.rows && decide (r.rows / 2 ^ o.scale ≤ o.nbands * o.th) &&
    match leAt b 0 1 with
    | 0 => inBasins range
    | 8 => im.regions.any fun g => g.access.testBit 0 && decide (g.base ≤ range.1) && decide (range.1 + range.2 ≤ g.base + g.size)
    | _ => false

/-- A source descriptor (R553). -/
def Source.ok (s : Source) : Bool :=
  decide (s.cls ≤ 1) && allZero s.rsv &&
    match s.kind with
    | 1 => decide (1 ≤ s.rows) && decide (1 ≤ s.cap) && decide (1 ≤ s.most) && decide (s.most ≤ 8) && s.aux == 0 &&
        inBasins (s.addr, s.rows * (s.cap + 1) * 8)
    | 2 => decide (1 ≤ s.rows) && decide (1 ≤ s.cap) && s.most == 0 && inBasins (s.addr, s.rows * (s.cap + 1) * 8) &&
        inBasins (s.aux, 16)
    | 3 => decide (1 ≤ s.rows) && s.cap == 0 && s.most == 0 && decide (1 ≤ s.maskWidth) && decide (s.aux < 0x100000) &&
        inBasins (s.addr, s.rows * s.maskWidth)
    | 4 => s.rows == 1 && s.cap == 0 && s.most == 0 && s.aux == 0 && inBasins (s.addr, 260)
    | _ => false

/-- STATE_MACHINE instance 2 (R553, R563). -/
def Image.checkSequencer (im : Image) (mosaic : Nat) : Check :=
  let b := im.sequencer
  let planes := leAt b 3 1
  let sources := leAt b 2 1
  (need (decide (16 ≤ b.length) && b.length == 16 + 16 * planes + 32 * sources && leAt b 0 2 == 1 && decide (sources ≤ 32) &&
      decide (planes ≤ 4) && allZero (sliceOf b 6 10) && im.outQueueOk) Ld.SCHED_FORMAT 0xFFFE) <|>
    (eachOf im.planes fun p i => need (im.planeOk mosaic p) Ld.SCHED_FORMAT i) <|>
    eachOf im.sources fun s i => need s.ok Ld.SCHED_FORMAT (planes + i)

/-! ### EXPERTS -/

/-- Bytes that a layer's seats use of a pool: input, hidden and output buffers and both banks of a seat. -/
def LayerRec.seatRanges (r : LayerRec) (s : SeatRec) : List (Nat × Nat) :=
  [(s.inAddr, r.cap * r.inStride), (s.outAddr, r.cap * r.outStride), (s.bank0, r.wsize), (s.bank1, r.wsize)] ++
    if r.stages = 2 then [(s.hidAddr, r.cap * r.hidStride)] else []

/-- Bytes of a layer in the pool of Vale `v`: its seats' and its group tables (R352). -/
def LayerRec.rangesOn (r : LayerRec) (v : Nat) : List (Nat × Nat) :=
  let seats := r.seats.filter fun s => s.vale == v
  seats.flatMap r.seatRanges ++
    if seats.isEmpty then [] else [(r.tables.getD v 0, 48 * seats.length * r.stages)]

/-- Bytes of every layer in the pool of Vale `v`. -/
def Image.expertRanges (im : Image) (v : Nat) : List (Nat × Nat) := im.layerRecs.flatMap fun r => r.rangesOn v

/-- A layer record is within the ranges of R351, on Vales that the primary table uses. -/
def LayerRec.ok (r : LayerRec) (t : Table) : Bool :=
  decide (1 ≤ r.e) && decide (r.e ≤ 64) && decide (1 ≤ r.kmax) && decide (r.kmax ≤ 4) && decide (r.flags ≤ 1) &&
    (r.stages == 1 || r.stages == 2) && decide (1 ≤ r.seats.length) && decide (r.seats.length ≤ 64) && decide (1 ≤ r.cap) &&
    decide (r.cap ≤ 1024) && decide (1 ≤ r.rowBytes) && decide (r.rowBytes ≤ 8192) && r.wsize % 64 == 0 && r.rsv == 0 &&
    (r.stages == 2 || (r.k1 == 0 && r.n1 == 0 && r.hidStride == 0 && r.w1 == 0 && r.w1Ofs == 0)) &&
    (r.tables.zipIdx.all fun g => (r.seats.any fun s => s.vale == g.2) || g.1 == 0) &&
    r.seats.all fun s => decide (s.vale ≤ 5) && decide (s.expert < r.e) && s.rsv == 0 && (r.stages == 2 || s.hidAddr == 0) &&
      t.mhz s.vale != 0

/-- A loop entry is within the ranges of R372. -/
def LoopEntry.ok (l : LoopEntry) : Bool :=
  decide (l.lane ≤ 8) && (l.src == 1 || (l.src == 2 && decide (l.index ≤ 15))) && l.rsv == 0

/-- Bytes of the first `n` layer descriptors of a byte string. -/
def layersSize : Nat → List Byte → Nat
  | 0, _ => 0
  | n + 1, b =>
    let k := 96 + 24 * leAt b 10 1
    k + layersSize n (b.drop k)

/-- The EXPERTS section passes the SCHED_FORMAT rows of R374. -/
def Image.expertsOk (im : Image) : Bool :=
  let b := im.body Ty.EXPERTS 0
  let layers := leAt b 2 1
  let loops := leAt b 4 2
  decide (16 ≤ b.length) && leAt b 0 2 == 1 && decide (layers ≤ 16) && leAt b 3 1 == 0 && decide (loops ≤ 256) &&
    leAt b 6 2 == 0 && leAt b 8 4 % 8 == 0 && leAt b 12 4 % 8 == 0 &&
    (layers == 0 || (decide (16 ≤ leAt b 8 4) && decide (leAt b 8 4 + layersSize layers (b.drop (leAt b 8 4)) ≤ b.length))) &&
    (loops == 0 || (decide (16 ≤ leAt b 12 4) && decide (leAt b 12 4 + 8 * loops ≤ b.length))) &&
    (im.layerRecs.all fun r => r.ok im.primary) && (im.loops.all LoopEntry.ok) &&
    (List.range 6).all fun v =>
      let rs := im.expertRanges v
      (rs.all fun g => decide (g.1 + g.2 ≤ memSize (v + 2))) && disjoint rs

/-! ### The Mover's parameter blocks -/

/-- Units of a lane that some table schedules. -/
def Image.scheduled (im : Image) (lane : Nat) : List Nat :=
  ((im.tableRefs.flatMap fun t => t.table.entries.filter fun e => e.lane == lane).map fun e => e.unitId).eraseDups

/-- A parameter block is within R353, R360 or R367. -/
def paramOk (op : Nat) (b : List Byte) : Bool :=
  let fp (f : Nat) : Bool := f == 2 || f == 3
  let tiles (first count tokens : Nat) : Bool :=
    decide (1 ≤ count) && decide (first + count ≤ 64) && decide (1 ≤ tokens) && decide (tokens ≤ 1024)
  match op with
  | 4 =>
    let q := RouteParam.ofBytes b
    fp q.fmt && tiles q.first q.tiles q.tokens && q.rsv == 0 && inBasins (q.gate, 1) && inBasins (q.inBase, 1) &&
      inBasins (q.records, 1)
  | 5 =>
    let q := CombineParam.ofBytes b
    (fp q.resFmt || q.resFmt == 0xFF) && fp q.outFmt && fp q.expFmt && tiles q.first q.tiles q.tokens && q.rsv == 0 &&
      inBasins (q.records, 1) && inBasins (q.outBase, 1) && (q.resFmt == 0xFF || inBasins (q.resBase, 1))
  | 6 => leAt b 1 3 == 0 && leAt b 4 4 % 64 == 0 && decide (64 ≤ leAt b 4 4) && allZero (sliceOf b 8 8)
  | _ => true

/-- Bytes of a parameter block. -/
def paramSize : Nat → Nat
  | 4 => 48 | 5 => 32 | 6 => 16 | _ => 0

/-- The Mover descriptors of a unit. -/
def UnitRec.moves (u : UnitRec) : List MDesc := (List.range u.passCount).map (moverDesc u.body)

/-- The parameter blocks of a MOVER_UNITS section's scheduled units; a block outside its constant area is UNIT_REF's. -/
def Image.paramsOk (im : Image) (mover : Nat) : Bool :=
  (im.scheduled (7 + mover)).all fun u =>
    match im.unit (7 + mover) u with
    | none => true
    | some r =>
      let consts := moverConsts r.body
      r.moves.all fun d => decide (consts.length < d.p0 + paramSize d.op) || paramOk d.op (sliceOf consts d.p0 (paramSize d.op))

/-! ### SCHED_FORMAT -/

/-- The check of one section. -/
def Image.checkSection (im : Image) (mosaic : Nat) (s : Section) (idx : Nat) : Check :=
  let whole (ok : Bool) : Check := need ok Ld.SCHED_FORMAT idx
  if s.ty = Ty.SCHEDULE then TableRef.checkFormat ⟨idx, s.inst, Table.ofBytes s.body⟩ im
  else if s.ty = Ty.READOUT then whole im.readoutOk
  else if s.ty = Ty.FRONT then whole (im.frontOk mosaic)
  else if s.ty = Ty.CURVES then curvesCheck (s.body.length / 8) [] 0 s.body
  else if s.ty = Ty.ROUTING then whole (routingOk s.body)
  else if s.ty = Ty.MOVER_UNITS then whole (im.paramsOk s.inst)
  else if s.ty = Ty.STATE_MACHINE ∧ s.inst = 0 then whole im.policiesOk
  else if s.ty = Ty.STATE_MACHINE ∧ s.inst = 1 then whole im.loopOk
  else if s.ty = Ty.STATE_MACHINE then im.checkSequencer mosaic
  else if s.ty = Ty.EXPERTS then whole im.expertsOk
  else none

/-- SCHED_FORMAT of the whole image, sections in directory order. -/
def Image.checkFormats (im : Image) (mosaic : Nat) : Check :=
  (eachOf im.sections (im.checkSection mosaic)) <|>
    need (im.controlEntries.isEmpty || (im.findIdx Ty.STATE_MACHINE 1).isSome) Ld.SCHED_FORMAT noDetail

end Sys2Proof.Machine
end

