-- ==== Sys2Proof/Machine/AdmitEngine.lean ====
section
/-!
DEFINITION. Machine/AdmitEngine.lean: admission of an engine's unit body: terraces and chains (R310, R311, R295, R299, R300, R304,
R306, R327), pass programs and ports (R314 to R317, R319), and windows (R328, R331).
-/
namespace Sys2Proof.Machine

/-! ### Linear sequences -/

/-- Some `i` below `n` has `lo ≤ a + i·b ≤ hi`. -/
def someStep (n : Nat) (a b lo hi : Int) : Bool :=
  if n = 0 then false
  else if b = 0 then decide (lo ≤ a) && decide (a ≤ hi)
  else if 0 < b then
    let i := if lo ≤ a then 0 else (lo - a + b - 1) / b
    decide (i < Int.ofNat n) && decide (a + i * b ≤ hi)
  else
    let i := if a ≤ hi then 0 else (a - hi + (-b) - 1) / (-b)
    decide (i < Int.ofNat n) && decide (lo ≤ a + i * b)

/-- From index `i` on, the last index of the run whose bytes `a + i·b` to `a + i·b + size − 1` stay in a region; none when
`i` itself is outside. -/
def stayIn (n i : Nat) (a b : Int) (size : Nat) (r : Nat × Nat) : Option Nat :=
  let p := a + Int.ofNat i * b
  let lo := Int.ofNat r.1
  let top := Int.ofNat (r.1 + r.2) - Int.ofNat size
  if p < lo ∨ top < p then none
  else if b = 0 then some (n - 1)
  else if 0 < b then some (min (n - 1) (i + ((top - p) / b).toNat))
  else some (min (n - 1) (i + ((p - lo) / (-b)).toNat))

/-- At every index from `i` to `n − 1` the bytes lie in one of the regions; `fuel` is above the number of regions. -/
def coverFrom (n : Nat) (a b : Int) (size : Nat) (rs : List (Nat × Nat)) : Nat → Nat → Bool
  | 0, _ => false
  | fuel + 1, i =>
    if n ≤ i then true
    else
      let ends := rs.filterMap (stayIn n i a b size)
      match ends with
      | [] => false
      | e :: es => coverFrom n a b size rs fuel (es.foldl max e + 1)

/-- At every index below `n`, bytes `a + i·b` to `a + i·b + size − 1` lie in one of the regions. -/
def covered (n : Nat) (a b : Int) (size : Nat) (rs : List (Nat × Nat)) : Bool :=
  size == 0 || coverFrom n a b size rs (2 * rs.length + 2) 0

/-! ### Terraces -/

/-- What admission looks at in an engine's unit. -/
structure EngineUnit where
  /-- Schedule lane code: 0 the Saddle, 1 to 6 a Vale. -/
  lane : Nat
  r : UnitRec
  b : Body
  deriving DecidableEq, Repr

/-- The unit as an engine's unit. -/
def UnitRec.engine (r : UnitRec) (lane : Nat) : EngineUnit := ⟨lane, r, Body.ofBytes r.passCount r.body⟩

abbrev EngineUnit.saddle (u : EngineUnit) : Bool := u.lane == 0

/-- Terrace `i`; one of no kind where none is declared. -/
abbrev EngineUnit.t (u : EngineUnit) (i : Nat) : TDesc := u.b.t i

/-- At most so many terraces of a kind. -/
def kindLimit (saddle : Bool) : Nat → Nat
  | 1 => 2 | 3 => 1 | 6 => 2 | 7 => 1 | 8 => 2
  | 2 | 4 | 5 => if saddle then 0 else 1
  | 9 | 10 | 11 | 12 => if saddle then 1 else 0
  | _ => 0

/-- Terraces that other terraces can take data from. -/
def TDesc.gives (t : TDesc) : Bool := t.kind != 0 && t.kind != Kd.WALK && t.kind != Kd.WRITE

/-- The array's operand formats of a mode. -/
def arrayFormats : Nat → Nat × Nat
  | 0 => (Fmt.INT8, Fmt.INT8) | 1 => (Fmt.INT4, Fmt.INT4) | 2 => (Fmt.INT8, Fmt.INT4) | _ => (Fmt.FP16, Fmt.FP16)

/-- Bits of an FFT OP. -/
def fftOpOk (op : Nat) : Bool :=
  let x := op / 16 % 16
  let y := op / 256 % 16
  decide (op < 4096) && op / 4 % 4 == 0 && decide (4 ≤ x) && decide (x ≤ 8) &&
    (if op / 2 % 2 = 1 then decide (4 ≤ y) && decide (y ≤ 8) else y == 0)

/-- FMT_OUT of a VECTOR terrace. -/
def vectorOut (op fmt : Nat) : Bool :=
  if op = 0x17 then fmt == Fmt.INT32 else if op = 0x18 then fmt == Fmt.CF32 else fmt == Fmt.FP16 || fmt == Fmt.FP32

/-- A format that a VECTOR operation takes. -/
def vectorIn (op fmt : Nat) : Bool :=
  fmt != Fmt.MASK && (fmt != Fmt.CF32 || op == 0x18 || op == 0x07)

/-- FMT_OUT of REQUANT, by OP. -/
def requantOut : Nat → Nat
  | 1 | 5 => Fmt.INT8 | 2 => Fmt.INT4 | _ => Fmt.FP16

/-- Terrace `i` is one that the tables of R310 and R327 permit, with the formats of R311. -/
def EngineUnit.terraceOk (u : EngineUnit) (i : Nat) : Bool :=
  let t := u.t i
  let a := u.t t.a
  let b := u.t t.b
  let given (s : Nat) : Bool := decide (s < i) && (u.t s).gives
  let noA := t.a == 0xFF
  let noB := t.b == 0xFF
  let plain := t.p0 == 0 && t.p1 == 0
  t.rsv == 0 && decide (((u.b.terraces.filter fun x : TDesc => x.kind == t.kind)).length ≤ kindLimit u.saddle t.kind) &&
    match t.kind with
    | 1 => noA && noB && decide (t.fmt ≤ 6) && decide (t.op ≤ 2) && plain
    | 2 => noA && noB && t.fmt == 0 && t.op == 0 && decide (1 ≤ t.p1) && decide (t.p1 ≤ 256) &&
        decide (t.p0 + 48 * t.p1 ≤ memSize 2)
    | 3 => given t.a && given t.b && (a.kind == Kd.READ || a.kind == Kd.WINDOW) && b.kind == Kd.READ && decide (t.op ≤ 3) &&
        !(u.saddle && t.op == 1) && (a.fmt, b.fmt) == arrayFormats t.op &&
        t.fmt == (if t.op = 3 then Fmt.FP32 else Fmt.INT32) && plain
    | 4 => given t.a && noB && (a.fmt == Fmt.FP16 || a.fmt == Fmt.FP32 || a.fmt == Fmt.CF32) &&
        fftOpOk t.op && t.fmt == Fmt.CF32 && plain
    | 5 => given t.a && given t.b && a.kind == Kd.READ && b.kind == Kd.READ && a.fmt == Fmt.INT8 && b.fmt == Fmt.INT8 &&
        t.op == 0 && t.fmt == Fmt.MASK
    | 6 => given t.a && decide (1 ≤ t.op) && decide (t.op ≤ 0x18) && vectorIn t.op a.fmt &&
        (noB || (given t.b && (vectorIn t.op b.fmt || (t.op == 0x12 && b.kind == Kd.ESTIMATE)))) &&
        vectorOut t.op t.fmt
    | 7 => given t.a && noB && (a.kind == Kd.ARRAY || a.kind == Kd.VECTOR) && decide (1 ≤ t.op) && decide (t.op ≤ 5) &&
        (if t.op ≤ 3 then a.kind == Kd.ARRAY && a.op != 3 else a.fmt == Fmt.FP32) && t.fmt == requantOut t.op && t.p0 == 0
    | 8 => given t.a && noB && t.fmt == a.fmt && decide (t.fmt ≤ 6) && t.fmt != Fmt.LOG10 &&
        decide (t.op ≤ 2) && plain
    | 9 => noA && noB && (t.fmt == Fmt.INT8 || t.fmt == Fmt.FP16) && decide (t.op ≤ 2) && t.p0 == 0
    | 10 => given t.a && noB && (a.fmt == Fmt.FP16 || a.fmt == Fmt.FP32) && t.op == 0 &&
        t.fmt == Fmt.INT32 && decide (1 ≤ t.p0) && decide (t.p0 ≤ 256)
    | 11 => given t.a && given t.b && (a.kind == Kd.TOPK || a.kind == Kd.READ) && a.fmt == Fmt.INT32 && b.kind == Kd.READ &&
        b.fmt == Fmt.INT32 && t.op == 0 && t.fmt == Fmt.INT32 && decide (t.p0 ≤ 65536) && decide (1 ≤ t.p1) &&
        decide (t.p1 ≤ 256)
    | 12 => given t.a && noB && (a.fmt == Fmt.FP16 || a.fmt == Fmt.FP32 || a.fmt == Fmt.INT8) &&
        t.op == 0 && t.fmt == Fmt.INT8 && t.p1 == 0
    | _ => false

/-- Fields of a window descriptor in range. -/
def Win.fieldsOk (v : Win) : Bool :=
  let within (lo hi x : Nat) : Bool := decide (lo ≤ x) && decide (x ≤ hi)
  decide (v.layout ≤ 1) && (v.fmt == Fmt.INT8 || v.fmt == Fmt.FP16 || v.fmt == Fmt.FP32 || v.fmt == Fmt.LOG10) &&
    within 1 7 v.kh && within 1 7 v.kw && within 1 4 v.stride && within 1 4 v.dil && decide (v.pad ≤ 1) && decide (v.src ≤ 1) &&
    (v.layout == 1 || v.src == 0) && within 1 255 v.ch && v.rsv == 0 && within 1 8192 v.wo && within 1 6144 v.ho &&
    within 1 8192 v.w && within 1 6144 v.h

/-- The window descriptor of a WINDOW terrace. -/
def EngineUnit.win (u : EngineUnit) (t : TDesc) : Win := Win.ofBytes (sliceOf u.b.consts t.p1 32)

/-- A declared WINDOW's descriptor lies in the constant area, has its fields in range, and names a front output that it fits (R331). -/
def EngineUnit.winOk (u : EngineUnit) (outs : List FrontOut) (t : TDesc) : Bool :=
  let v := u.win t
  decide (t.p1 + 32 ≤ u.b.constSize) && v.fieldsOk &&
    (v.layout == 0 || outs[v.src]?.any fun o =>
      decide (v.ch + v.first ≤ o.channels) && v.fmt == (if o.desc.fmt = 0 then Fmt.FP16 else Fmt.LOG10))

/-- The body's parts (R315, R319) and its terraces. -/
def EngineUnit.bodyOk (u : EngineUnit) (outs : List FrontOut) : Bool :=
  let b := u.b
  let parts := 16 + 16 * b.count + 96 * u.r.passCount
  let est := b.terraces.any fun t => t.kind == Kd.ESTIMATE
  decide (1 ≤ b.count) && decide (b.count ≤ 8) && b.rsv == 0 && b.constOfs % 4 == 0 && decide (parts ≤ u.r.body.length) &&
    (b.constSize == 0 || (decide (parts ≤ b.constOfs) && decide (b.constOfs + b.constSize ≤ u.r.body.length))) &&
    (if est then decide (1 ≤ b.grid) && decide (b.grid ≤ 4096) else b.grid == 0) &&
    ((b.terraces.filter fun t => t.kind == Kd.READ || t.kind == Kd.WINDOW).length ≤ 2) &&
    (List.range b.terraces.length).all fun i =>
      u.terraceOk i && decide ((b.users i).length ≤ 2) && ((u.t i).kind != Kd.WINDOW || u.winOk outs (u.t i))

/-! ### Windows (R328, R331) -/

/-- Coordinates of one axis that taps of a window reach: lowest and highest; none when no tap reaches the input. -/
def axisReach (o : Int) (outs stride taps dil size : Nat) (clamped : Bool) : Option (Nat × Nat) :=
  let top := Int.ofNat size - 1
  let last := o + Int.ofNat ((outs - 1) * stride + (taps - 1) * dil)
  if clamped then some ((clampInt 0 top o).toNat, (clampInt 0 top last).toNat)
  else
    let one (d : Nat) : Option (Int × Int) :=
      let c := o + Int.ofNat (d * dil)
      let s := Int.ofNat stride
      let first := if 0 ≤ c then c else c + (-c + s - 1) / s * s
      let most := min (Int.ofNat (outs - 1)) ((top - c) / s)
      if first ≤ c + most * s ∧ 0 ≤ most then some (first, c + most * s) else none
    ((List.range taps).filterMap one).foldl (fun (b : Option (Nat × Nat)) x =>
      match b with
      | none => some (x.1.toNat, x.2.toNat)
      | some y => some (min y.1 x.1.toNat, max y.2 x.2.toNat)) none

/-- Offset and length of the bytes that an HWC window reaches through its port. -/
def Win.reach (v : Win) (p : PortDef) : Nat × Nat :=
  match axisReach v.ox0 v.wo v.stride v.kw v.dil v.w (v.pad == 1), axisReach v.oy0 v.ho v.stride v.kh v.dil v.h (v.pad == 1) with
  | some x, some y =>
    let size := fmtBits v.fmt / 8
    let lo := v.addr p none v.first x.1 y.1
    (lo, v.addr p none (v.first + v.ch - 1) x.2 y.2 + size - lo)
  | _, _ => (p.addr, 0)

/-- The window of a pass: counts and port (R328, R331). -/
def Win.ok (v : Win) (g : Prog) (p : PassRec) (port : PortDef) (outs : List FrontOut) : Bool :=
  v.k == g.k && v.wo * v.ho % max 1 g.m == 0 && p.iterMax == v.wo * v.ho / max 1 g.m && p.iterSrc == 0 &&
    port.rows == 0 && port.strideIter == 0 &&
    (v.layout == 0 || outs[v.src]?.any fun o => port.addr == o.desc.base && port.rowBytes == 0 && port.strideRow == 0)

/-! ### Pass programs -/

/-- Rows and row length of the output of terrace `i`, and those that a terrace takes from a READ (R316). -/
abbrev EngineUnit.shape (u : EngineUnit) (g : Prog) (i : Nat) : Nat × Nat := u.b.shape g (g.dims 0) 9 i
abbrev EngineUnit.takes (u : EngineUnit) (g : Prog) (x : TDesc) (i : Nat) : Nat × Nat := u.b.takes g (g.dims 0) x i

/-- A port carries rows of `s.2` elements. -/
def PortDef.carries (p : PortDef) (fmt : Nat) (s : Nat × Nat) : Bool := p.rows == s.1 && p.rowBytes == rowSize fmt s.2

/-- The port of READ terrace `i` carries what terrace `x` takes from it. -/
def EngineUnit.feeds (u : EngineUnit) (g : Prog) (p : PortDef) (i : Nat) (x : TDesc) : Bool :=
  let fmt := (u.t i).fmt
  match x.kind with
  | 3 | 5 => (x.a != i || p.carries fmt (g.m, g.k)) && (x.b != i || p.carries fmt (g.n, g.k))
  | 11 => (x.a != i || (p.rows == g.m && p.rowBytes % 8 == 0 && decide (16 ≤ p.rowBytes))) && (x.b != i || p.rowBytes == 16)
  | _ => p.carries fmt (u.takes g x i)

/-- The port of an enabled terrace has the rows of its tensor; what takes a WINDOW's rows of K elements as rows of N elements needs the
two equal (DESIGN CHOICE, log entry 67). -/
def EngineUnit.portOk (u : EngineUnit) (g : Prog) (i : Nat) : Bool :=
  let t := u.t i
  let p := g.ports.getD (u.b.portOf i) ⟨0, 0, 0, 0, 0⟩
  if t.kind = Kd.READ then (u.b.users i).all fun x => !g.runs x.2 || u.feeds g p i x.1
  else if t.kind = Kd.WINDOW then (u.b.users i).all fun x => !g.runs x.2 || x.1.kind == Kd.ARRAY || g.n == g.k
  else if t.kind = Kd.WRITE then
    p.carries t.fmt (u.shape g i) &&
      (t.op != 2 || (p.addr % 64 == 0 && p.rowBytes % 64 == 0 && p.strideRow % 64 == 0 && p.strideIter % 64 == 0))
  else true

/-- Ports of terraces that do not run in the pass, or that no terrace has, are zero. -/
def EngineUnit.unusedOk (u : EngineUnit) (g : Prog) : Bool :=
  let used := (u.b.terraces.zipIdx.filter fun x => x.1.ported && g.runs x.2).map fun x => u.b.portOf x.2
  g.ports.zipIdx.all fun p => used.contains p.2 || p.1 == ⟨0, 0, 0, 0, 0⟩

/-- M, N and K of a pass program (R316). -/
def EngineUnit.dimsOk (u : EngineUnit) (g : Prog) : Bool :=
  let fft := u.b.on g Kd.FFT
  let array := u.b.on g Kd.ARRAY
  let est := u.b.on g Kd.ESTIMATE
  decide (1 ≤ g.m) && (!array || decide (g.m ≤ 1024)) && (if fft then g.n == 0 else decide (1 ≤ g.n) && decide (g.n ≤ 65536)) &&
    (if array || est || u.b.on g Kd.WINDOW then decide (1 ≤ g.k) && decide (g.k ≤ 2 ^ 24) && (!est || decide (g.k ≤ 256)) else g.k == 0) &&
    (!u.b.on g Kd.TOPK || decide (g.n ≤ 4096)) && (!u.b.on g Kd.PIXARG || decide (g.n ≤ 255))

/-- One requantization record. -/
def ReqRec.ok (op : Nat) (r : ReqRec) : Bool :=
  decide (-16 ≤ r.shift) && decide (r.shift ≤ 31) && decide (r.lo ≤ r.hi) && (decide (2 < op) || decide (r.mult < 2 ^ 31)) &&
    (op != 2 || (decide (-8 ≤ r.lo) && decide (r.hi ≤ 7)))

/-- The constants that an enabled terrace reads lie in the constant area, and are in range. -/
def EngineUnit.constOk (u : EngineUnit) (g : Prog) (t : TDesc) : Bool :=
  let n := (u.shape g t.a).2
  match t.kind with
  | 6 => if t.op = 0x13 then decide (t.p1 + 4 * n ≤ u.b.constSize)
      else t.op != 0x14 || decide (t.p1 + 2 * n ≤ u.b.constSize)
  | 7 => t.op == 4 || (decide (t.p1 + 12 * n ≤ u.b.constSize) &&
      (groupsOf 12 n (sliceOf u.b.consts t.p1 (12 * n))).all fun r => (reqRec r 0 0).ok t.op)
  | _ => true

/-- The enabled terraces form a chain (R311), and share the array and the post-processor (R306, R327). -/
def EngineUnit.chainOk (u : EngineUnit) (g : Prog) : Bool :=
  let ts := u.b.terraces.zipIdx.filter fun x => g.runs x.2
  let post := (ts.filter fun x => x.1.kind == Kd.TOPK || x.1.kind == Kd.NMS || x.1.kind == Kd.PIXARG)
  decide (g.enable < 2 ^ u.b.count) && !(u.b.on g Kd.FFT && u.b.on g Kd.ARRAY) &&
    (decide (post.length ≤ 1) || (decide (post.length ≤ 2) &&
      post.any fun x => x.1.kind == Kd.NMS && (u.t x.1.a).kind == Kd.TOPK && g.runs x.1.a)) &&
    ts.all fun x =>
      let t := x.1
      let src (s : Nat) : Bool := s == 0xFF || g.runs s
      (t.kind == Kd.READ || t.kind == Kd.WALK || t.kind == Kd.WINDOW || (src t.a && src t.b)) &&
        (!t.gives || (u.b.users x.2).any fun y => g.runs y.2)

/-! ### Ranges (R314, R319) -/

/-- Where an enabled port terrace's rows lie in iteration `i`: memory (pool, Basins, Plain), offset at iteration 0 and per iteration,
length; none for a port whose place a group entry gives. -/
def EngineUnit.place (u : EngineUnit) (g : Prog) (outs : List (Nat × Nat)) (x : TDesc × Nat) : Option (Nat × Nat × Nat × Nat) :=
  let j := u.b.portOf x.2
  let p := g.ports.getD j ⟨0, 0, 0, 0, 0⟩
  if x.1.kind = Kd.WINDOW then
    let v := u.win x.1
    if v.layout = 0 then
      let r := v.reach p
      some (x.1.op, r.1, 0, r.2)
    else
      let r := outs.getD v.src (0, 0)
      some (1, r.1, 0, r.2)
  else if u.b.on g Kd.WALK ∧ j ≤ 2 then none
  else some (x.1.op, p.addr, p.strideIter, spanOf p.rows p.rowBytes p.strideRow)

/-- The enabled port terraces of a pass. -/
def EngineUnit.portTerraces (u : EngineUnit) (g : Prog) : List (TDesc × Nat) :=
  u.b.terraces.zipIdx.filter fun x => x.1.ported && g.runs x.2

/-- A port outside the Plain stays in its memory in every iteration; a window none of whose taps meets its input reads nothing. -/
def rangeOk (saddle : Bool) (iters : Nat) (q : Nat × Nat × Nat × Nat) : Bool :=
  let last := q.2.1 + (iters - 1) * q.2.2.1 + q.2.2.2
  if q.2.2.2 = 0 then true
  else if q.1 = 0 then decide (last ≤ memSize (if saddle then 1 else 2))
  else if q.1 = 1 then decide (0x200000 ≤ q.2.1) && decide (last ≤ 0x3000000)
  else true

/-- The range of one port in some iteration and the range of another in some iteration have a byte in common (R314, R341). -/
def portsMeet (iters : Nat) (a b : Nat × Nat × Nat × Nat) : Bool :=
  a.1 == b.1 && a.2.2.2 != 0 && b.2.2.2 != 0 &&
    (List.range iters).any fun i =>
      someStep iters (Int.ofNat (a.2.1 + i * a.2.2.1) - Int.ofNat b.2.1) (-Int.ofNat b.2.2.1)
        (1 - Int.ofNat a.2.2.2) (Int.ofNat b.2.2.2 - 1)

/-- One pass program and its pass record. -/
def EngineUnit.passOk (u : EngineUnit) (outs : List FrontOut) (rings : List (Nat × Nat)) (g : Prog) (p : PassRec) : Bool :=
  let ts := u.b.terraces.zipIdx.filter fun x => g.runs x.2
  let places (w : Bool) := ((u.portTerraces g).filter fun x => (x.1.kind == Kd.WRITE) == w).filterMap (u.place g rings)
  g.rsv == 0 && u.chainOk g && u.dimsOk g && u.unusedOk g &&
    (ts.all fun x => u.portOk g x.2 && u.constOk g x.1 &&
      (x.1.kind != Kd.WINDOW ||
        (u.win x.1).ok g p (g.ports.getD (u.b.portOf x.2) ⟨0, 0, 0, 0, 0⟩) outs) &&
      (x.1.kind != Kd.WALK || decide (p.iterMax ≤ x.1.p1))) &&
    ((u.portTerraces g).filterMap (u.place g rings)).all (rangeOk u.saddle p.iterMax) &&
    (places true).all fun w => (places false).all fun r => !portsMeet p.iterMax r w

/-- The whole body. -/
def EngineUnit.ok (u : EngineUnit) (outs : List FrontOut) (rings : List (Nat × Nat)) : Bool :=
  u.bodyOk outs && decide (u.b.progs.length = u.r.passes.length) &&
    (List.zipWith (u.passOk outs rings) u.b.progs u.r.passes).all id

/-- Every Plain range lies in a region that the unit references with the access it needs. -/
def EngineUnit.plainOk (u : EngineUnit) (regions : List (Nat × Nat × Nat)) (rings : List (Nat × Nat)) : Bool :=
  (List.zipWith (fun (g : Prog) (p : PassRec) =>
    (u.portTerraces g).all fun x =>
      match u.place g rings x with
      | none => true
      | some q => q.1 != 2 ||
          covered p.iterMax (Int.ofNat q.2.1) (Int.ofNat q.2.2.1) q.2.2.2
            ((regions.filter fun r => r.2.2.testBit (x.1.kind == Kd.WRITE).toNat).map fun r => (r.1, r.2.1)))
    u.b.progs u.r.passes).all id

/-! ### Cost (R318, R330, R486) -/

/-- Cycles of a terrace that is no port. -/
def EngineUnit.cycles (u : EngineUnit) (g : Prog) (t : TDesc) : Nat :=
  let ws := widthsOf (if u.saddle then 6 else 0)
  match t.kind with
  | 3 =>
    let rows := (if t.op = 3 then 4 * g.m else g.m) + (if u.saddle then 8 else 16)
    let chunk := if u.saddle then 32 else if t.op = 1 then 128 else 64
    ceilDiv g.n ws.block * ceilDiv g.k chunk * rows
  | 4 =>
    let x := t.op / 16 % 16
    let y := t.op / 256 % 16
    let axis (e lines : Nat) : Nat := (fftRadices e).length * lines * ceilDiv (2 ^ e) 64
    g.m * (if t.op / 2 % 2 = 1 then axis x (2 ^ y) + axis y (2 ^ x) else axis x 1)
  | 5 => ceilDiv (g.m * g.n) 64 * ceilDiv g.k 64
  | 6 => ceilDiv (g.m * g.n) ws.lanes * vectorCost t.op
  | 7 => ceilDiv (g.m * g.n) ws.lanes
  | 2 => 32
  | 9 => ceilDiv (g.m * g.k) 128
  | 10 => g.m * (78 * ceilDiv g.n 64 + t.p0)
  | 11 =>
    let l := if (u.t t.a).kind = Kd.TOPK then (u.t t.a).p0
      else (g.ports.getD (u.b.portOf t.a) ⟨0, 0, 0, 0, 0⟩).rowBytes / 8 - 1
    g.m * (ceilDiv (l * l) 64 + l)
  | 12 => ceilDiv (g.m * g.n) 64
  | _ => 0

/-- Bytes per iteration of a port. -/
def EngineUnit.portBytes (u : EngineUnit) (g : Prog) (x : TDesc × Nat) : Nat :=
  let p := g.ports.getD (u.b.portOf x.2) ⟨0, 0, 0, 0, 0⟩
  if x.1.kind = Kd.WINDOW then g.m * g.k * (fmtBits (u.win x.1).fmt / 8)
  else p.rows * p.rowBytes

/-- Memory of a port: 0 the pool, 1 the Basins, 2 the Plain. -/
def EngineUnit.portMem (u : EngineUnit) (x : TDesc × Nat) : Nat :=
  if x.1.kind = Kd.WINDOW ∧ (u.win x.1).layout = 1 then 1 else x.1.op

/-- Bytes per iteration of all ports of a memory. -/
def EngineUnit.memBytes (u : EngineUnit) (g : Prog) (mem : Nat) : Nat :=
  (((u.portTerraces g).filter fun x => u.portMem x == mem).map (u.portBytes g)).foldl (fun a b : Nat => a + b) 0

/-- Pieces (offset, length) that a Basin port moves in iteration `i`. -/
def EngineUnit.pieces (u : EngineUnit) (g : Prog) (outs : List FrontOut) (i : Nat) (x : TDesc × Nat) : List (Nat × Nat) :=
  let p := g.ports.getD (u.b.portOf x.2) ⟨0, 0, 0, 0, 0⟩
  if x.1.kind = Kd.WINDOW then
    let v := u.win x.1
    let out := if v.layout = 0 then none else outs[v.src]?
    (List.range g.m).flatMap fun m => (List.range v.k).filterMap fun r =>
      (v.tap p out (i * g.m + m) r).map fun a => (a, fmtBits v.fmt / 8)
  else (List.range p.rows).map fun r => (p.addr + i * p.strideIter + r * p.strideRow, p.rowBytes)

/-- The pieces cut at Basin boundaries and added up by Basin; the largest sum. -/
def basinPeak (ps : List (Nat × Nat)) : Nat :=
  let cut := (ps.filter fun p => p.2 != 0).flatMap fun p =>
    (List.range ((p.1 + p.2 - 1) / 0x80000 - p.1 / 0x80000 + 1)).map fun k =>
      let b := p.1 / 0x80000 + k
      (b, min (p.1 + p.2) ((b + 1) * 0x80000) - max p.1 (b * 0x80000))
  (cut.foldl (fun (m : List (Nat × Nat)) e => Sparse.insert m e.1 ((Sparse.get (fun _ => 0) m e.1) + e.2)) []).foldl
    (fun n e => max n e.2) 0

/-- The largest number of bytes of one iteration that fall in one Basin. -/
def EngineUnit.peakBytes (u : EngineUnit) (g : Prog) (outs : List FrontOut) (iters : Nat) : Nat :=
  let ports := (u.portTerraces g).filter fun x => u.portMem x == 1
  (List.range iters).foldl (fun n i => max n (basinPeak (ports.flatMap (u.pieces g outs i)))) 0

/-- Model cost of a pass per iteration; `control` for a Control-class unit of the Saddle. -/
def EngineUnit.cost (u : EngineUnit) (control : Bool) (outs : List FrontOut) (g : Prog) (p : PassRec) : Nat :=
  let ts := u.b.terraces.zipIdx.filter fun x => g.runs x.2
  let vector := ((ts.filter fun x => x.1.kind == Kd.VECTOR).map fun x => u.cycles g x.1).foldl (fun a b : Nat => a + b) 0
  let others := ((ts.filter fun x => x.1.kind != Kd.VECTOR).map fun x => u.cycles g x.1)
  let pool := ceilDiv (u.memBytes g 0) (if u.saddle then 1024 else 2048)
  let basin := ceilDiv (u.memBytes g 1) 64
  let basin := if control then max basin (ceilDiv (4 * u.peakBytes g outs p.iterMax) 192) else basin
  64 + (vector :: pool :: basin :: others).foldl max 0

/-- Every pass declares at least its model cost. -/
def EngineUnit.costOk (u : EngineUnit) (control : Bool) (outs : List FrontOut) : Bool :=
  (List.zipWith (fun (g : Prog) (p : PassRec) => decide (u.cost control outs g p ≤ p.compute))
    u.b.progs u.r.passes).all id

end Sys2Proof.Machine
end

