-- ==== Sys2Proof/Machine/AdmitUnits.lean ====
section
/-!
DEFINITION. Machine/AdmitUnits.lean: admission of the units that lanes run: envelopes and records (R165, R166, R187), the
Movers' descriptors (R420 to R422, R425, R430), loop entries and expert layers (R372, R374), EXACT networks (R396), and the
cycle bound (R167, R375, R429).
-/
namespace Sys2Proof.Machine

/-! ### Sections and records -/

/-- A section of units: its directory index, lane code and body. -/
structure UnitSec where
  idx : Nat
  lane : Nat
  body : List Byte
  deriving DecidableEq, Repr

/-- The unit sections in directory order. -/
def Image.unitSecs (im : Image) : List UnitSec :=
  im.sections.zipIdx.filterMap fun e =>
    let s := e.1
    if s.ty = Ty.SADDLE_UNITS then some ⟨e.2, 0, s.body⟩
    else if s.ty = Ty.VALE_UNITS then some ⟨e.2, s.inst + 1, s.body⟩
    else if s.ty = Ty.MOVER_UNITS then some ⟨e.2, s.inst + 7, s.body⟩
    else none

/-- Units of a section with their indices. -/
def UnitSec.units (s : UnitSec) : List (UnitRec × Nat) :=
  (List.range (unitCount s.body)).filterMap fun u => (unitOf s.body u).map fun r => (r, u)

/-- A section's envelope (R165). -/
def UnitSec.envelopeOk (s : UnitSec) : Bool :=
  let n := leAt s.body 0 2
  decide (16 ≤ s.body.length) && decide (1 ≤ n) && decide (n ≤ 4096) && leAt s.body 2 2 == 1 && allZero (sliceOf s.body 4 12) &&
    decide (16 + 8 * n ≤ s.body.length) &&
    (List.range n).all fun u => decide (leAt s.body (16 + 8 * u) 4 + leAt s.body (20 + 8 * u) 4 ≤ s.body.length)

/-- Some table uses a lane: a Vale by its VALE_MHZ, a Mover by an entry. -/
def Image.usesLane (im : Image) (lane : Nat) : Bool :=
  if lane = 0 then true
  else if lane ≤ 6 then im.tableRefs.any fun t => t.table.mhz (lane - 1) != 0
  else !(im.scheduled lane).isEmpty

/-- Envelopes, the counts of R164 that depend on the tables (one section of a lane at most), and UNIT_ID. A Vale whose VALE_MHZ is
not 0 and that has neither its section nor an entry has no index to name, and DETAIL is 0xFFFF (log entry 66). -/
def Image.checkSections (im : Image) : Check :=
  (eachOf im.unitSecs fun s i =>
    need (s.envelopeOk && im.usesLane s.lane && (im.unitSecs.take i).all fun p => p.lane != s.lane) Ld.UNIT_REF s.idx) <|>
    (im.eachEntry fun _ e i =>
      if e.lane = 9 then none else need (im.unit e.lane e.unitId).isSome Ld.UNIT_REF i) <|>
    need ((List.range 6).all fun v => !im.usesLane (v + 1) || im.unitSecs.any fun s => s.lane == v + 1) Ld.UNIT_REF noDetail

/-- A unit record (R166). -/
def UnitRec.ok (r : UnitRec) : Bool :=
  decide (32 ≤ r.bytes.length) && decide (1 ≤ r.passCount) && decide (r.passCount ≤ 1024) && decide (r.regionCount ≤ 64) &&
    decide (r.flags ≤ 1) && allZero r.rsv && (r.passes.all fun p => decide (p.iterSrc ≤ 2) && p.rsv == 0) &&
    (r.regions.all fun g => decide (g.2.1 ≤ 3) && g.2.2 == 0) &&
    decide (32 + 16 * r.passCount + 4 * r.regionCount ≤ r.bodyOfs) && decide (r.bodyOfs + r.bodySize ≤ r.bytes.length)

/-! ### The Movers -/

/-- The lowest byte of a rectangle in iteration 0, its bytes from there, and the move per iteration. -/
structure Rect where
  mem : Nat
  lo : Int
  size : Nat
  step : Int
  deriving DecidableEq, Repr

/-- A rectangle of `rows` rows (R422). -/
def MDesc.rect (d : MDesc) (mem addr : Nat) (sy sz si : Int) (rows : Nat) : Rect :=
  let e := d.reach sy sz rows
  ⟨mem, Int.ofNat addr + e.1, (e.2 - e.1 + 1).toNat, si⟩

def MDesc.srcRect (d : MDesc) : Rect := d.rect d.srcMem d.src d.ssy d.ssz d.ssi (if d.op = 3 then d.p2 else d.y)
def MDesc.dstRect (d : MDesc) : Rect := d.rect d.dstMem d.dst d.dsy d.dsz d.dsi d.y
/-- The index list of a GATHER. -/
def MDesc.listRect (d : MDesc) : Rect := ⟨d.p1, Int.ofNat d.p0, 4 * d.y, Int.ofNat (4 * d.y)⟩

/-- What a descriptor reads, and what it writes. -/
def MDesc.reads (d : MDesc) : List Rect := if d.op = 1 then [d.srcRect] else if d.op = 3 then [d.srcRect, d.listRect] else []
def MDesc.writes (d : MDesc) : List Rect := if 1 ≤ d.op ∧ d.op ≤ 3 then [d.dstRect] else []

/-- Two rectangles have a byte in common in some iteration. -/
def Rect.meets (iters : Nat) (a b : Rect) : Bool :=
  a.mem == b.mem && someStep iters (a.lo - b.lo) (a.step - b.step) (1 - Int.ofNat a.size) (Int.ofNat b.size - 1)

/-- A rectangle outside the Plain stays in its memory in every iteration. -/
def Rect.inMemory (iters : Nat) (a : Rect) : Bool :=
  let last := a.lo + Int.ofNat (iters - 1) * a.step
  let lo := min a.lo last
  let hi := max a.lo last + Int.ofNat a.size
  if a.mem = 8 then true
  else if a.mem = 0 then decide (0x200000 ≤ lo) && decide (hi ≤ 0x3000000)
  else decide (0 ≤ lo) && decide (hi ≤ Int.ofNat (memSize a.mem))

/-- Rows of a rectangle overlap one another. -/
def MDesc.selfOverlap (d : MDesc) (sy sz : Int) : Bool :=
  (decide (1 < d.y) && decide (sy.natAbs < d.x)) || (decide (1 < d.z) && decide (sz.natAbs < (d.y - 1) * sy.natAbs + d.x))

/-- R425: the rows of a descriptor interleave. -/
def MDesc.interleaves (d : MDesc) (iters : Nat) : Bool :=
  (!d.writes.isEmpty && d.selfOverlap d.dsy d.dsz) ||
    (d.op == 1 && d.srcRect.meets iters d.dstRect &&
      ((decide (1 < d.y) && d.ssy != d.dsy) || (decide (1 < d.z) && d.ssz != d.dsz) || d.selfOverlap d.ssy d.ssz)) ||
    (d.op == 3 && d.srcRect.meets iters d.dstRect)

/-- Fields of a descriptor (R421), and the rules of R430 but for the Plain's regions. -/
def MDesc.ok (d : MDesc) (p : PassRec) (constSize : Nat) : Bool :=
  let within (hi x : Nat) : Bool := decide (1 ≤ x) && decide (x ≤ hi)
  let still := d.src == 0 && d.dst == 0 && d.ssy == 0 && d.ssz == 0 && d.ssi == 0 && d.dsy == 0 && d.dsz == 0 && d.dsi == 0
  d.rsv == 0 && within (2 ^ 24) d.x && within 65536 d.y && within 4096 d.z &&
    (match d.op with
     | 1 => decide (d.srcMem ≤ 8) && decide (d.dstMem ≤ 8) && d.p0 == 0 && d.p1 == 0 && d.p2 == 0
     | 2 => d.srcMem == 0xFF && decide (d.dstMem ≤ 8) && d.p2 == 0
     | 3 => decide (d.srcMem ≤ 8) && decide (d.dstMem ≤ 8) && decide (d.p1 ≤ 7) && within (2 ^ 24) d.p2
     | 4 | 5 | 6 => d.srcMem == 0xFF && d.dstMem == 0xFF && d.x == 1 && d.y == 1 && d.z == 1 && still && d.p1 == 0 && d.p2 == 0 &&
         decide (d.p0 + paramSize d.op ≤ constSize) && (d.op == 6 || (p.iterMax == 1 && p.iterSrc == 0))
     | _ => false) &&
    ((d.reads ++ d.writes).all fun a => a.inMemory p.iterMax) &&
    (d.writes.isEmpty || d.dstMem != 8 ||
      (d.dst % 64 == 0 && d.x % 64 == 0 && (d.y == 1 || d.dsy % 64 == 0) && (d.z == 1 || d.dsz % 64 == 0) &&
        (decide (p.iterMax ≤ 1) || d.dsi % 64 == 0)))

/-- The body of a Mover unit (R420, R430). -/
def UnitRec.moverOk (r : UnitRec) : Bool :=
  let b := r.body
  let parts := 16 + 64 * r.passCount
  leAt b 0 2 == r.passCount && leAt b 2 2 == 0 && leAt b 12 4 == 0 && leAt b 4 4 % 4 == 0 && decide (parts ≤ b.length) &&
    (leAt b 8 4 == 0 || (decide (parts ≤ leAt b 4 4) && decide (leAt b 4 4 + leAt b 8 4 ≤ b.length))) &&
    (List.zipWith (fun d p => MDesc.ok d p (leAt b 8 4)) r.moves r.passes).all id

/-- The Plain rectangles of a unit lie in regions that it references with the access they need. -/
def UnitRec.moverPlainOk (r : UnitRec) (regions : List (Nat × Nat × Nat)) : Bool :=
  (List.zipWith (fun (d : MDesc) (p : PassRec) =>
    let inside (bit : Nat) (a : Rect) : Bool := a.mem != 8 ||
      covered p.iterMax a.lo a.step a.size ((regions.filter fun g => g.2.2.testBit bit).map fun g => (g.1, g.2.1))
    (d.reads.all (inside 0)) && d.writes.all (inside 1)) r.moves r.passes).all id

/-! ### Expert layers (R372, R374) -/

/-- The parameter block's layer that a descriptor names, for ROUTE, COMBINE and PLACE. -/
def UnitRec.layerOf (r : UnitRec) (d : MDesc) : Option Nat :=
  if 4 ≤ d.op then some (leAt (moverConsts r.body) d.p0 1) else none

/-- A Mover unit has a descriptor of an operation on a layer. -/
def UnitRec.moves? (r : UnitRec) (op l : Nat) : Bool := r.moves.any fun d => d.op == op && r.layerOf d == some l

/-- Stages of a layer whose group table a WALK terrace of Vale `v` names. -/
def LayerRec.stagesAt (r : LayerRec) (v p0 : Nat) : List Nat :=
  let n := (r.seatsOn v).length
  if n = 0 then [] else (List.range r.stages).filter fun s => r.tables.getD v 0 + 48 * n * s == p0

/-- The (pass, program, PARAM0) of a Vale unit's WALK passes. -/
def UnitRec.walks (r : UnitRec) (lane : Nat) : List (PassRec × Prog × Nat) :=
  let u := r.engine lane
  (u.r.passes.zip u.b.progs).filterMap fun x =>
    (u.b.terraces.zipIdx.find? fun t => t.1.kind == Kd.WALK && x.2.runs t.2).map fun t : TDesc × Nat => (x.1, x.2, t.1.p0)

/-- A Vale unit walks a table of a layer. -/
def UnitRec.walksLayer (u : UnitRec) (v : Nat) (r : LayerRec) : Bool :=
  (u.walks (v + 1)).any fun w => !(r.stagesAt v w.2.2).isEmpty

/-- The WALK passes of a Vale unit that read a layer's tables are wide enough. -/
def UnitRec.walksOk (u : UnitRec) (v : Nat) (r : LayerRec) : Bool :=
  (u.walks (v + 1)).all fun w => (r.stagesAt v w.2.2).all fun s =>
    decide (r.cap ≤ w.2.1.m) && decide ((if s = 0 then r.n0 else r.n1) ≤ w.2.1.n) &&
      decide ((if s = 0 then r.k0 else r.k1) ≤ w.2.1.k) && decide ((r.seatsOn v).length ≤ w.1.iterMax)

/-- Loop entry `i` names a pass whose ITER_SRC is its SRC, and no earlier entry names it. -/
def Image.loopEntryOk (im : Image) (l : LoopEntry) (i : Nat) : Bool :=
  (match im.unit l.lane l.unitId with
   | none => false
   | some r => (r.passes[l.pass]?).any fun p => p.iterSrc == l.src) &&
    !((im.loops.take i).any fun k => k.lane == l.lane && k.pass == l.pass && k.unitId == l.unitId)

/-- Every unit of the image: lane code, index, record. -/
def Image.allUnits (im : Image) : List (Nat × Nat × UnitRec) :=
  im.unitSecs.flatMap fun s => s.units.map fun x => (s.lane, x.2, x.1)

/-- R372. -/
def Image.checkLoops (im : Image) : Check :=
  (eachOf im.loops fun l i => need (im.loopEntryOk l i) Ld.UNIT_REF i) <|>
    eachOf im.allUnits fun u _ =>
      need (u.2.2.passes.zipIdx.all fun p => p.1.iterSrc == 0 ||
        im.loops.any fun l => l.lane == u.1 && l.unitId == u.2.1 && l.pass == p.2) Ld.UNIT_REF u.2.1

/-- A scheduled unit takes part in a layer's ROUTE, COMBINE or expert work. -/
def UnitRec.serves (r : UnitRec) (lane l : Nat) (rec : LayerRec) : Bool :=
  if 7 ≤ lane then r.moves? 4 l || r.moves? 5 l else 1 ≤ lane && r.walksLayer (lane - 1) rec

/-- Entries of a table whose units serve a layer agree in FRAME_OFS, and its ROUTE entries in lane; the first that differs. -/
def Image.layerEntries (im : Image) (t : Table) (l : Nat) (rec : LayerRec) : Check :=
  let es := t.entries.filterMap fun e => if e.lane = 9 then none else (im.unit e.lane e.unitId).map fun r => (e, r)
  let at0 := es.filter fun x => x.2.serves x.1.lane l rec
  let routes := es.filter fun x => decide (7 ≤ x.1.lane) && x.2.moves? 4 l
  (eachOf routes fun x _ => need ((routes.head?).all fun y => y.1.lane == x.1.lane) Ld.UNIT_REF x.1.unitId) <|>
    eachOf at0 fun x _ => need ((at0.head?).all fun y => y.1.frameOfs == x.1.frameOfs) Ld.UNIT_REF x.1.unitId

/-- A layer is scheduled for PLACE. -/
def Image.placed (im : Image) (l : Nat) : Bool :=
  [7, 8].any fun lane => (im.scheduled lane).any fun u => (im.unit lane u).any fun r => r.moves? 6 l

/-- The UNIT_REF rows of R374, in its order: layers and their entries, loop entries, and WALK passes that read a layer's table. -/
def Image.checkLayers (im : Image) : Check :=
  (eachOf [7, 8] fun lane _ => eachOf (im.scheduled lane) fun u _ =>
    need ((im.unit lane u).all fun r => r.moves.all fun d => (r.layerOf d).all fun l => decide (l < im.layerRecs.length))
      Ld.UNIT_REF u) <|>
    (eachOf im.layerRecs fun rec l => eachOf im.tableRefs fun t _ => im.layerEntries t.table l rec) <|>
    (eachOf im.policies fun p i => need (im.placed p.layer) Ld.UNIT_REF i) <|> im.checkLoops <|>
    eachOf (List.range 6) fun v _ => eachOf (im.scheduled (v + 1)) fun u _ =>
      need (im.layerRecs.all fun rec => (im.unit (v + 1) u).all fun r => r.walksOk v rec) Ld.UNIT_REF u

/-- R396. -/
def Image.checkExact (im : Image) : Check :=
  eachOf im.allUnits fun u i =>
    need (((im.allUnits.take i).find? fun w => w.2.2.network == u.2.2.network).all fun w => w.2.2.flags % 2 == u.2.2.flags % 2)
      Ld.UNIT_REF u.2.1

/-! ### UNIT_REF -/

/-- Basin ranges of the front outputs: base and bytes of the rings. -/
def Image.rings (im : Image) (mosaic : Nat) : List (Nat × Nat) :=
  im.outs.map fun o => (o.base, o.ringBytes mosaic im.readout.width)

/-- One unit of a section. -/
def Image.unitOk (im : Image) (mosaic : Nat) (lane : Nat) (r : UnitRec) (u : Nat) : Bool :=
  let used := (im.scheduled lane).contains u
  if lane = 0 ∨ (lane ≤ 6 ∧ used) then (r.engine lane).ok (im.frontOuts mosaic) (im.rings mosaic)
  else if 7 ≤ lane then
    (!used || r.moverOk) && (List.zipWith (fun (d : MDesc) (p : PassRec) => !d.interleaves p.iterMax) r.moves r.passes).all id
  else true

/-- UNIT_REF of the whole image. -/
def Image.checkUnits (im : Image) (mosaic : Nat) : Check :=
  im.checkSections <|>
    (eachOf im.unitSecs fun s _ => eachOf s.units fun x _ => need x.1.ok Ld.UNIT_REF x.2) <|>
    (eachOf im.unitSecs fun s _ => eachOf s.units fun x _ => need (im.unitOk mosaic s.lane x.1 x.2) Ld.UNIT_REF x.2) <|>
    im.checkLayers <|> im.checkExact

/-- LOOP_UNBOUNDED. -/
def Image.checkUnbounded (im : Image) : Check :=
  eachOf im.allUnits fun u _ => need (u.2.2.passes.all fun p => p.iterMax != 0) Ld.LOOP_UNBOUNDED u.2.1

/-! ### CMAX_BOUND -/

/-- How many numbers below `n` leave a remainder `k` by 64. -/
def alike (n k : Nat) : Nat := if k < n then (n - 1 - k) / 64 + 1 else 0

/-- Lines that the rows of a rectangle touch, its first byte at `a` (R429). -/
def MDesc.linesAt (d : MDesc) (a sy sz : Int) : Nat :=
  (List.range (min d.y 64)).foldl (fun n y =>
    (List.range (min d.z 64)).foldl (fun n z =>
      n + alike d.y y * alike d.z z * ceilDiv (((a + Int.ofNat y * sy + Int.ofNat z * sz) % 64).toNat + d.x) 64) n) 0

/-- Model cost and Plain lines of a descriptor in iteration `i` (R375, R429). -/
def UnitRec.moverCost (r : UnitRec) (layers : List LayerRec) (d : MDesc) (i : Nat) : Nat × Nat :=
  let consts := moverConsts r.body
  let rows := d.z * d.y
  let src := if d.srcMem ≠ 8 then 0
    else if d.op = 3 then rows * (ceilDiv d.x 64 + 1) else d.linesAt (Int.ofNat d.src + Int.ofNat i * d.ssi) d.ssy d.ssz
  let dst := if d.dstMem = 8 then d.linesAt (Int.ofNat d.dst + Int.ofNat i * d.dsi) d.dsy d.dsz else 0
  match d.op with
  | 1 => (64 + rows * (ceilDiv d.x 64 + 2), src + dst)
  | 2 => (64 + rows * (ceilDiv d.x 64 + 1), dst)
  | 3 => (64 + ceilDiv (4 * d.y) 64 + rows * (ceilDiv d.x 64 + 2), src + dst)
  | 4 =>
    let q := RouteParam.ofBytes (sliceOf consts d.p0 48)
    match layers[q.layer]? with
    | none => (0, 0)
    | some l => (64 + q.tiles * q.tokens * (ceilDiv l.e 16 + l.kmax + l.kmax * ceilDiv l.rowBytes 64) +
        2 * l.seats.length * l.stages, 0)
  | 5 =>
    let q := CombineParam.ofBytes (sliceOf consts d.p0 32)
    match layers[q.layer]? with
    | none => (0, 0)
    | some l => (64 + q.tiles * q.tokens * (2 + l.kmax * ceilDiv l.nOut 16 + (l.kmax + 2) * ceilDiv (4 * l.nOut) 64), 0)
  | _ =>
    let most := leAt consts (d.p0 + 4) 4
    (64 + most / 64, most / 64)

/-- Every pass of a Mover unit declares at least its cost and its lines. -/
def UnitRec.moverCostOk (r : UnitRec) (layers : List LayerRec) : Bool :=
  (List.zipWith (fun (d : MDesc) (p : PassRec) =>
    (List.range (min p.iterMax 64)).all fun i =>
      let c := r.moverCost layers d i
      decide (c.1 ≤ p.compute) && decide (c.2 ≤ p.lines)) r.moves r.passes).all id

/-- A unit's passes declare at least their model cost. -/
def Image.costOk (im : Image) (mosaic lane u : Nat) (r : UnitRec) : Bool :=
  if 7 ≤ lane then r.moverCostOk im.layerRecs
  else (r.engine lane).costOk (lane == 0 && im.controlEntries.any fun e => e.unitId == u) (im.frontOuts mosaic)

/-- CMAX_BOUND: scheduled units by their entries, then the Saddle's others. -/
def Image.checkBound (im : Image) (mosaic : Nat) : Check :=
  (im.eachEntry fun t e i =>
    match im.unit e.lane e.unitId with
    | none => none
    | some r => if e.lane = 9 then none
      else need (im.costOk mosaic e.lane e.unitId r && decide (r.bound (t.table.laneMhz e.lane) ≤ e.cMax)) Ld.CMAX_BOUND i) <|>
    eachOf im.unitSecs fun s _ => if s.lane = 0 then
        eachOf s.units fun x _ => need (im.costOk mosaic 0 x.2 x.1) Ld.CMAX_BOUND x.2
      else none

end Sys2Proof.Machine
end

