-- ==== Sys2Proof/Machine/Power.lean ====
section
/-!
DEFINITION. Machine/Power.lean: supply comparators and their conditions (R628, R629), thermal throttling (R630 to R632), and
the counting intervals outside operation (R457, R459).
-/
namespace Sys2Proof.Machine

/-! ### Rails (R35) -/

/-- Minimum and maximum of a rail, in mV: VDDPIX, VDDA, VDDIO, VDDL, VDDM, VDDVCM. -/
def railLimits (r : Nat) : Nat × Nat :=
  ([(2700, 2900), (1710, 1890), (1710, 1890), (600, 850), (1060, 1170), (3135, 3465)] : List (Nat × Nat)).getD r (0, 0)

/-- What a sample of a rail shows: 0 in range, 1 low, 2 high. -/
def railSeen (r mv : Nat) : Nat := if mv < (railLimits r).1 then 1 else if (railLimits r).2 < mv then 2 else 0

/-- A rail state that holds condition bit 6 (R611, R629). -/
def railBad (r state : Nat) : Bool := state == 2 || (state == 1 && r != 5)

/-- Put a rail in place. -/
def Chip.setRail (c : Chip) (r : Nat) (x : Rail) : Chip := { c with supply := { c.supply with rails := c.supply.rails.set r x } }

/-- The measured levels. -/
def Chip.measure (c : Chip) (mv : List Nat) : Chip :=
  (List.range 6).foldl (fun c r => c.setRail r { c.rail r with mv := mv.getD r (c.rail r).mv }) c

/-- PWR_STATUS follows the rails (R634). -/
def Chip.showPower (c : Chip) : Chip :=
  let bits (f : Nat → Bool) : Nat := (List.range 6).foldl (fun b r => if f r then b + 2 ^ r else b) 0
  let c := c.set F.PWR_STATUS.LOW (bits fun r => (c.rail r).state == 1 || (r == 3 && c.supply.low))
  c.set F.PWR_STATUS.HIGH (bits fun r => (c.rail r).state == 2)

/-- A rail enters a state (R629). -/
def Chip.railEnters (c : Chip) (r state : Nat) : Chip :=
  let high := c.vddvcmHigh
  let c := c.setRail r { c.rail r with state := state, clean := none }
  let c := if railBad r state then { c with supply := { c.supply with range := true } } else c
  if state = 0 then
    if r = 5 then c.setVcm { c.loop.vcm with supplyOk := true } else c
  else if r = 5 then
    if state = 1 then
      let c := if c.loop.vcm.used then c.alert Code.SUPPLY_RANGE 5 1 else c
      c.vddvcmFalls (c.loop.vcm.supplyOk || high)
    else (c.setVcm { c.loop.vcm with supplyOk := false }).alert Code.SUPPLY_RANGE 5 2
  else c.alert Code.SUPPLY_RANGE r state

/-- One comparator sample of a rail: a state is entered when two consecutive samples agree (R628). -/
def Chip.railSample (c : Chip) (r : Nat) : Chip :=
  let x := c.rail r
  let seen := railSeen r x.mv
  let c := c.setRail r { x with seen := seen }
  if seen = x.seen ∧ seen ≠ x.state then c.railEnters r seen
  else if r = 5 ∧ seen = 0 ∧ x.seen = 0 ∧ c.loop.vcm.supplyOk = false then c.setVcm { c.loop.vcm with supplyOk := true }
  else c

/-- VDDL against the MIN_VDDL_MV of the image in force: condition bit 7 (R629). -/
def Chip.lowSample (c : Chip) : Chip :=
  let seen := c.loader.image.isSome && decide (c.vddl < c.image.minVddl)
  let s := c.supply
  let c := { c with supply := { s with lowSeen := seen } }
  if seen = s.lowSeen ∧ seen ≠ s.low then
    if seen then
      let c := { c with supply := { c.supply with low := true, vddlLow := true, lowClean := none } }
      ((List.range 6).foldl (fun c n => if c.fenced n then c else c.raiseIsland n) c).alert Code.VDDL_LOW 3 0
    else { c with supply := { c.supply with low := false, lowClean := none } }
  else c

/-- VDDL lies below SAFE_MV − 120 mV of an unfenced Vale with a unit scheduled in the tick (R629). -/
def Chip.vddlCritical (c : Chip) : Bool :=
  c.dev.ticking && !c.sched.starting && (List.range 6).any fun n =>
    !c.fenced n && decide (c.vddl + 120 < c.safeMv n) && c.plan.any fun s => s.e.lane == n + 1

/-- The critical limit: fatal when two consecutive samples lie below it. -/
def Chip.critSample (c : Chip) : Chip :=
  let seen := c.vddlCritical
  let was := c.supply.critSeen
  let c := { c with supply := { c.supply with critSeen := seen } }
  if seen && was then c.fatal Code.VDDL_CRITICAL 3 0 else c

/-- SUPPLY_SAMPLE: the comparators sample every rail; outside RESET_HOLD and SENSE their states follow (R628). -/
def Chip.supplySample (c : Chip) (mv : List Nat) : Chip :=
  let c := c.measure mv
  if c.dev.portsAnswer then
    let c := (List.range 6).foldl Chip.railSample c
    (c.lowSample.showPower).critSample
  else c

/-- SUPPLY_SAMPLE. -/
def execSupplySample (mv : List Nat) (s : State) : Host.Outcome State Fault Refusal :=
  act (.supplySample mv) (fun _ c => c.supplySample mv) s

/-- A tick edge, or the end of an interval: rails in range count whole ticks, from the first edge after their return. -/
def Chip.supplyEdge (c : Chip) : Chip :=
  let tick (bad : Bool) (k : Option Nat) : Option Nat :=
    if bad then none else match k with
      | none => some 0
      | some n => some (min 8 (n + 1))
  let c := (List.range 6).foldl (fun c r =>
    c.setRail r { c.rail r with clean := tick (railBad r (c.rail r).state) (c.rail r).clean }) c
  { c with supply := { c.supply with lowClean := tick c.supply.low c.supply.lowClean } }

/-- SUPPLY_CONDITION_END: the condition of bit 6 or bit 7 ends after 8 whole ticks in range (R629). -/
def Chip.supplyConditionEnd (c : Chip) (bit : Nat) : Chip :=
  if bit = 6 then
    if (List.range 6).all fun r => !railBad r (c.rail r).state && (c.rail r).clean == some 8 then
      { c with supply := { c.supply with range := false } }
    else c
  else if bit = 7 then
    if c.supply.low = false ∧ c.supply.lowClean = some 8 then { c with supply := { c.supply with vddlLow := false } } else c
  else c

/-- SUPPLY_CONDITION_END. -/
def execSupplyConditionEnd (bit : Nat) (s : State) : Host.Outcome State Fault Refusal :=
  act (.supplyConditionEnd bit) (fun _ c => c.supplyConditionEnd bit) s

/-! ### Throttling (R630 to R632) -/

/-- A temperature in whole degrees as a code (R249). -/
def degrees (t : Nat) : Int := Int.ofNat t * 64 + 16384

/-- The throttle level that a temperature code gives, from the level in force. -/
def throttleLevel (l1 l2 hyst level : Nat) (code : Nat) : Nat :=
  let l2 := max l1 l2
  let t : Int := code
  if degrees l2 ≤ t then 2
  else if degrees l1 ≤ t ∧ level < 1 then 1
  else
    let at_ := if level = 2 then l2 else l1
    if 0 < level ∧ t < degrees at_ - Int.ofNat (max 1 hyst) * 64 then level - 1 else level

/-- The throttle level for the tick that begins (R630, R632). -/
def Chip.throttleEdge (c : Chip) : Chip :=
  let c := c.surveyAge
  match c.survey.hottest with
  | none => (c.setBit F.THR_STATUS.STALE true).alertOnce Code.THERMAL_STALE noUnit 0
  | some code =>
    let level := throttleLevel (c.live F.THR_CFG.T_L1) (c.live F.THR_CFG.T_L2) (c.live F.THR_CFG.HYST) c.supply.level code
    let c := (c.setBit F.THR_STATUS.STALE false).set F.THR_STATUS.HOTTEST (pixTemp code)
    let rose := decide (c.supply.level < level)
    let c := ({ c with supply := { c.supply with level := level } } : Chip).set F.THR_STATUS.LEVEL level
    if rose then c.alert Code.THROTTLE noUnit level else c

/-- A network is named by an enabled THR_KEEP register. -/
def Chip.kept (c : Chip) (net : Nat) : Bool :=
  (List.range 8).any fun i => c.liveBit (F.THR_KEEP.EN.el i) && c.live (F.THR_KEEP.NETWORK_ID.el i) == net

/-- An entry is shed in the tick in progress (R631). -/
def Chip.isShed (c : Chip) (s : Slotted) : Bool :=
  s.e.lane != 9 && s.e.cls != 0 &&
    ((decide (1 ≤ c.supply.level) && decide (2 ≤ s.e.cls)) ||
      (decide (2 ≤ c.supply.level) && s.e.cls == 1 && !((c.planUnit s).any fun r => c.kept r.network)))

/-! ### Counting intervals (R457, R459) -/

/-- The counts marked "per tick". -/
def errorCounts : List Fld :=
  [F.ECC_SRAM_COUNT.CE, F.ECC_SRAM_COUNT.UE, F.ECC_PLAIN_COUNT.CE, F.ECC_PLAIN_COUNT.UE, F.ECC_POISON_WR.VALUE]

/-- A tick or an interval ends for the fault log. -/
def Chip.nextStamp (c : Chip) : Chip := { c with once := [], stamp := c.stamp + 1 }

/-- INTERVAL_END: an interval of 16 666.667 µs ends in a state without ticks; SCRUB_CFG and ECC_THRESH come into force. -/
def Chip.intervalEnd (c : Chip) : Chip :=
  if c.dev.portsAnswer && !c.dev.ticking then
    ((c.showTallies errorCounts).latch [A.SCRUB_CFG, A.ECC_THRESH]).nextStamp.supplyEdge
  else c

/-- INTERVAL_END. -/
def execIntervalEnd (s : State) : Host.Outcome State Fault Refusal := act .intervalEnd (fun _ c => c.intervalEnd) s

end Sys2Proof.Machine
end

