-- ==== Sys2Proof/Machine/Admit.lean ====
section
/-!
DEFINITION. Machine/Admit.lean: admission (R187) of the Plain's regions (R168, R169), the memory loads (R170), register defaults
(R171) and the queue table (R173, R482, R493), the extra checks of a hot load (R191), and the whole order of checks.
-/
namespace Sys2Proof.Machine

/-! ### Regions -/

/-- Bytes of a DATA section; none when the directory index names no such section. -/
def Image.dataSize (im : Image) (i : Nat) : Option Nat :=
  match im.sections[i]? with
  | some s => if s.ty = Ty.DATA then some s.body.length else none
  | none => none

/-- A RING region holds only queue ring storage (R169): no fill with data, no unit's reference and no layer's master copies name
it (what else would break the rule is the model's reading, log entry 108). -/
def Image.ringOnly (im : Image) (r : Region) : Bool :=
  r.fill != 3 && (im.allUnits.all fun u => u.2.2.regions.all fun g => g.1 != r.id) && im.layerRecs.all fun l => l.region != r.id

/-- One region entry, against the entry before it and the region record. -/
def Image.regionOk (im : Image) (record : List Byte) (r : Region) (i : Nat) : Bool :=
  let before := im.regions.take i
  decide (i < 4096) && decide (r.access < 16) && decide (r.fill ≤ 3) && r.base % 64 == 0 && r.size % 64 == 0 &&
    decide (64 ≤ r.size) && decide (r.base + r.size ≤ 0x40000000) && r.rsv == 0 &&
    (if r.fill = 3 then (im.dataSize r.src).any fun n => decide (r.srcOfs + r.size ≤ n) else r.src == 0) &&
    (r.fill == 2 || allZero r.pattern) && (before.all fun p => p.id != r.id) &&
    (before.all fun p => decide (p.base + p.size ≤ r.base)) &&
    (!r.access.testBit 2 || (r.fill == 0 && (regionsOf record).any fun p =>
      p.id == r.id && p.base == r.base && p.size == r.size && p.access % 4 != 0)) &&
    (!r.access.testBit 3 || (r.access % 4 == 3 && im.ringOnly r))

/-- PLAIN_REGION. -/
def Image.checkRegions (im : Image) (record : List Byte) : Check :=
  (eachOf im.regions fun r i => need (im.regionOk record r i) Ld.PLAIN_REGION i) <|>
    need ((im.body Ty.PLAIN_REGIONS 0).length % 32 == 0) Ld.PLAIN_REGION im.regions.length

/-- A unit's region references (R169). -/
def Image.refsOk (im : Image) (u : UnitRec) : Bool :=
  u.regions.all fun g => (im.regions.find? fun r => r.id == g.1).any fun r =>
    (!g.2.1.testBit 0 || r.access.testBit 0) && (!g.2.1.testBit 1 || r.access.testBit 1)

/-- The Plain ranges of a unit (R319, R430). -/
def Image.rangesOk (im : Image) (mosaic lane u : Nat) (r : UnitRec) : Bool :=
  let used := (im.scheduled lane).contains u
  if lane = 0 ∨ (lane ≤ 6 ∧ used) then (r.engine lane).plainOk (im.unitRegions r) (im.rings mosaic)
  else lane ≤ 6 || !used || r.moverPlainOk (im.unitRegions r)

/-- PLAIN_UNWRITTEN: regions, references, ranges, master copies (R374). -/
def Image.checkUnwritten (im : Image) (mosaic : Nat) : Check :=
  (eachOf im.regions fun r i =>
    need (!r.access.testBit 0 || r.fill != 0 || r.access.testBit 2 || r.access.testBit 3) Ld.PLAIN_UNWRITTEN i) <|>
    (eachOf im.allUnits fun u _ => need (im.refsOk u.2.2) Ld.PLAIN_UNWRITTEN u.2.1) <|>
    (eachOf im.allUnits fun u _ => need (im.rangesOk mosaic u.1 u.2.1 u.2.2) Ld.PLAIN_UNWRITTEN u.2.1) <|>
    eachOf im.layerRecs fun r i =>
      need ((im.regions.find? fun g => g.id == r.region).any fun g =>
        g.access.testBit 0 && decide (r.masterOfs + r.e * r.wsize ≤ g.size)) Ld.PLAIN_UNWRITTEN i

/-! ### Loads and defaults -/

/-- Ring of a queue: memory, and its range. -/
def QDesc.ring (d : List Byte) : Nat × (Nat × Nat) := (QDesc.ringMem d, (QDesc.ringBase d, 2 ^ QDesc.ringLog2 d))

/-- Rings of the ACTIVE queues of the image. -/
def Image.ringsOf (im : Image) : List (Nat × (Nat × (Nat × Nat))) :=
  (im.queues.filter fun q => QDesc.state q.2 == 1).map fun q => (q.1, QDesc.ring q.2)

/-- Ranges that no memory load may meet, in a memory. -/
def Image.taken (im : Image) (mosaic mem : Nat) : List (Nat × Nat) :=
  if mem = 0 then im.frontRanges mosaic ++ (im.ringsOf.filter fun q => q.2.1 == 0).map fun q => q.2.2 else []

/-- Seat buffers, banks and group tables that a memory load meets: R374 puts this MEMORY_LOAD check before its UNIT_REF rows
(DEDUCED, log entry 112). -/
def Image.checkSeatLoads (im : Image) : Check :=
  eachOf im.memLoads fun l i =>
    need (l.dest < 2 || 7 < l.dest || (im.expertRanges (l.dest - 2)).all fun g => !overlap (l.off, l.size) g) Ld.MEMORY_LOAD i

/-- One entry of MEMORY_LOADS. -/
def Image.memLoadOk (im : Image) (mosaic : Nat) (l : MemLoad) (i : Nat) : Bool :=
  let range := (l.off, l.size)
  decide (l.dest ≤ 7) && l.rsv == 0 && decide (1 ≤ l.size) &&
    (if l.dest = 0 then inBasins range else decide (l.off + l.size ≤ memSize l.dest)) &&
    ((im.dataSize l.src).any fun n => decide (l.srcOfs + l.size ≤ n)) &&
    (im.memLoads.zipIdx.all fun m => m.2 == i || m.1.dest != l.dest || !overlap range (m.1.off, m.1.size)) &&
    (im.taken mosaic l.dest).all fun g => !overlap range g

/-- MEMORY_LOAD. -/
def Image.checkLoads (im : Image) (mosaic : Nat) : Check :=
  (eachOf im.memLoads fun l i => need (im.memLoadOk mosaic l i) Ld.MEMORY_LOAD i) <|>
    need ((im.body Ty.MEMORY_LOADS 0).length % 24 == 0) Ld.MEMORY_LOAD im.memLoads.length

/-- REG_DEFAULT. -/
def Image.checkDefaults (im : Image) : Check :=
  (eachOf im.regDefaults fun e i => need (defaultOk e.1 e.2) Ld.REG_DEFAULT i) <|>
    need ((im.body Ty.REG_DEFAULTS 0).length % 8 == 0) Ld.REG_DEFAULT im.regDefaults.length

/-! ### The queue table -/

/-- The runs of a queue table, from one that may start at `first` on. -/
def runsCheck : Nat → Nat → List Byte → Check
  | _, _, [] => none
  | 0, _, _ => some (Ld.QUEUE_TABLE, noDetail)
  | fuel + 1, first, b =>
    let f := leAt b 0 4
    let n := leAt b 4 4
    if 8 ≤ b.length ∧ 1 ≤ n ∧ first ≤ f ∧ f + n ≤ 65536 ∧ 8 + 32 * n ≤ b.length then
      runsCheck fuel (f + n) (b.drop (8 + 32 * n))
    else some (Ld.QUEUE_TABLE, f % 65536)

/-- Classes of R474. -/
abbrev Cls.control : Nat := 0

/-- One descriptor of the table, against every ring of the image (R482). -/
def Image.queueOk (im : Image) (mosaic : Nat) (q : Nat × List Byte) : Bool :=
  let d := q.2
  let ring := QDesc.ring d
  if QDesc.state d = 0 then allZero d
  else
    QDesc.state d == 1 && QDesc.fieldsOk d && QDesc.ringOk d && allZero (sliceOf d 13 19) &&
      (ring.1 == 0 || im.regions.any fun g =>
        g.access.testBit 3 && decide (g.base ≤ ring.2.1) && decide (ring.2.1 + ring.2.2 ≤ g.base + g.size)) &&
      (im.ringsOf.all fun o => o.1 == q.1 || o.2.1 != ring.1 || !overlap ring.2 o.2.2) &&
      (ring.1 != 0 || (im.frontRanges mosaic).all fun g => !overlap ring.2 g) &&
      (QDesc.cls d != Cls.control || (ring.1 == 0 && decide (1 ≤ QDesc.credits d) && decide (QDesc.credits d ≤ 4096) &&
        QDesc.full d != 2 && QDesc.poison d != 2)) &&
      (QDesc.full d != 2 || decide (2 ≤ QDesc.cls d))

/-- CREDITS of the Control-class queues up to and with queue `q` (R482). -/
def Image.creditsTo (im : Image) (q : Nat) : Nat :=
  ((im.queues.filter fun x => decide (x.1 ≤ q) && QDesc.state x.2 == 1 && QDesc.cls x.2 == Cls.control).map
    fun x => QDesc.credits x.2).foldl (fun a b : Nat => a + b) 0

/-- Queues that break a rule of R482, R493 or R374. -/
def Image.badQueues (im : Image) (mosaic : Nat) : List Nat :=
  ((im.queues.filter fun q => !im.queueOk mosaic q || decide (4096 < im.creditsTo q.1)).map fun q => q.1) ++
    ((im.bindings.filter fun b => !((im.queueDesc b.queue).any fun d =>
        QDesc.state d == 1 && QDesc.cls d == Cls.control && QDesc.es d == 1 && QDesc.owner d == 10)).map fun b => b.queue) ++
    ((im.loops.filter fun l => l.src == 1 && !((im.queueDesc l.index).any fun d =>
        QDesc.state d == 1 && QDesc.owner d == laneNode (laneOfCode l.lane))).map fun l => l.index)

/-- QUEUE_TABLE. -/
def Image.checkQueues (im : Image) (mosaic : Nat) : Check :=
  let b := im.body Ty.QUEUE_TABLE 0
  runsCheck (b.length / 8) 0 b <|>
    match im.badQueues mosaic with
    | [] => none
    | q :: qs => some (Ld.QUEUE_TABLE, qs.foldl min q)

/-! ### A hot load (R191, R289, R374) -/

/-- HOT_MISMATCH; DETAIL names the first section concerned, in directory order (R186). -/
def Image.checkMismatch (im now : Image) : Check :=
  let same (ty : Nat) : Bool := im.body ty 0 == now.body ty 0
  let found := [
    (im.primary.rate == now.primary.rate && im.primary.mode == now.primary.mode && im.primary.spill == now.primary.spill,
      Ty.SCHEDULE, 0xFF),
    (same Ty.QUEUE_TABLE, Ty.QUEUE_TABLE, 0), (same Ty.ROUTING, Ty.ROUTING, 0),
    ((im.findIdx Ty.MEMORY_LOADS 0).isNone, Ty.MEMORY_LOADS, 0)]
  let bad := (found.filter fun x : Bool × Nat × Nat => !x.1).map fun x => (im.findIdx x.2.1 x.2.2).getD noDetail
  match bad.min? with
  | none => none
  | some i => some (Ld.HOT_MISMATCH, i)

/-- The front ranges equal the running image's in their places, or meet none of them. -/
def Image.frontKept (im now : Image) (mosaic : Nat) : Bool :=
  let shape (i : Image) : List (Option (Nat × Nat)) :=
    let rs := i.frontRanges mosaic
    if i.readout.short then rs.map some else none :: rs.map some
  let old := shape now
  (shape im).zipIdx.all fun r =>
    match r.1 with
    | none => true
    | some g => old.getD r.2 none == some g || old.all fun o => o.all fun x => !overlap g x

/-- HOT_OVERLAP: filled regions, front and seat ranges, and the merged table (`new` and `old` are the tables in force). -/
def Image.checkHot (im now : Image) (mosaic : Nat) (new old : Table) : Check :=
  (eachOf im.regions fun r i =>
    need (r.fill == 0 || now.regions.all fun o => !overlap (r.base, r.size) (o.base, o.size)) Ld.HOT_OVERLAP i) <|>
    need (im.frontKept now mosaic) Ld.HOT_OVERLAP ((im.findIdx Ty.FRONT 0).getD noDetail) <|>
    (eachOf im.layerRecs fun r i =>
      need ((List.range 6).all fun v => (r.rangesOn v).all fun g => (now.expertRanges v).all fun o => !overlap g o)
        Ld.HOT_OVERLAP i) <|>
    eachOf new.entries fun e i =>
      need (e.frameOfs == 1 || (old.entries.filter fun o => o.frameOfs == 1).all fun o =>
        o.lane != e.lane || !overlap (o.start, o.length) (e.start, e.length)) Ld.HOT_OVERLAP i

/-! ### The whole -/

/-- Every admission check from VDDL on (R187). -/
def Image.admission (im : Image) (mosaic vddl : Nat) (record : List Byte) : Check :=
  need (decide (im.minVddl ≤ vddl)) Ld.VDDL noDetail <|> im.checkRate <|> im.checkFormats mosaic <|> im.checkSeatLoads <|>
    im.checkUnits mosaic <|>
    im.checkOverlap <|> im.checkRange <|> im.checkAfter <|> im.checkRowGate <|> im.checkSpill <|> im.checkUnbounded <|>
    im.checkBound mosaic <|> im.checkWindow <|> im.checkControlLane <|> im.checkBudget <|> im.checkRegions record <|>
    im.checkUnwritten mosaic <|> im.checkLoads mosaic <|> im.checkDefaults <|> im.checkQueues mosaic

/-- Admission in place: a hot load has the checks of R191 besides. -/
def Chip.admission (c : Chip) (im : Image) (hot : Bool) : Check :=
  im.admission c.mosaic (c.rail 3).mv c.loader.record <|>
    if hot then im.checkMismatch c.image <|> im.checkHot c.image c.mosaic (c.tableOf im) c.table else none

end Sys2Proof.Machine
end

