-- ==== Sys2Proof/Machine/Loader.lean ====
section
/-!
DEFINITION. Machine/Loader.lean: the image loader: header, directory, sections and signature (R160 to R164, R174 to R179),
pushes and flash reads (R179 to R186), what success and failure do (R136 to R138, R189 to R191, R193).
-/
namespace Sys2Proof.Machine

/-! ### Header (R161, R175 to R178) -/

/-- MAGIC. -/
def magic : List Byte := [0x45, 0x56, 0x53, 0x49]

/-- Fields of a header that the BAD_HEADER check looks at, but for TOTAL_SIZE. R161 excludes IMAGE_ID 0, and BAD_HEADER is the code
for a header field out of its range (DEDUCED: R187's list of fields does not name it; log entry 106). -/
def headerFieldsOk (h : List Byte) : Bool :=
  leAt h 4 2 == 1 && leAt h 6 2 == 0x100 && decide (1 ≤ leAt h 0x0C 2) && decide (leAt h 0x0C 2 ≤ 255) && decide (leAt h 0x14 1 ≤ 64) &&
    decide (600 ≤ leAt h 0x18 2) && decide (leAt h 0x18 2 ≤ 850) && decide (leAt h 0x1A 2 ≤ 1024) && decide (leAt h 0x1C 1 ≤ 2) &&
    decide (leAt h 0x15 1 < 8) && leAt h 0x10 4 != 0 && leAt h 0x17 1 == 0 && allZero (sliceOf h 0x1D 3) &&
    allZero (sliceOf h 0x28 24) && allZero (sliceOf h 0x80 128)

/-- TOTAL_SIZE is one that R160 allows. -/
def totalOk (n : Nat) : Bool := n % 64 == 0 && decide (0x400 ≤ n) && decide (n ≤ 0x8000000)

/-- FACTORY and FIELD: OTP keys and the rollback counter are used (R154). -/
def Chip.ownKeys (c : Chip) : Bool := c.lifecycle == 2 || c.lifecycle == 3

/-- SIG_KEY and ENC are a pair that R177 accepts. -/
def Chip.keyPolicyOk (c : Chip) (h : List Byte) : Bool :=
  let enc := leAt h 0x0E 1
  let sig := leAt h 0x0F 1
  if c.ownKeys then sig == 1 && enc == 1 else c.lifecycle != 5 && sig == 0 && (enc == 0 || enc == 2)

/-- The structure-image public-key hash region is unprogrammed. -/
def Chip.keyUnset (c : Chip) : Bool := c.ownKeys && !otpSeal (c.otpInForce 7) 7

/-- The key hash matches (R175). -/
def Chip.keyHashOk (c : Chip) (h : List Byte) : Bool :=
  let d := Crypto.sha256 (sliceOf h 0x40 64)
  if leAt h 0x0F 1 = 1 then !c.keyUnset && d == otpBytes (c.otpInForce 7) 7 32 else d == Crypto.sha256 (keyBytes Config.vendorKey)

/-- The trailer matches the header (R176). -/
def trailerOk (h t : List Byte) : Bool :=
  t == [0x45, 0x56, 0x53, 0x45] ++ sliceOf h 8 4 ++ sliceOf h 0x10 4 ++ [0, 0, 0, 0]

/-- The checks that the 256th byte of a header makes possible, in the order of R187. -/
def Chip.headerCheck (c : Chip) (h : List Byte) : Check :=
  firstOf [need (headerFieldsOk h) Ld.BAD_HEADER noDetail, need (c.keyPolicyOk h) Ld.KEY_POLICY noDetail,
    need (c.keyHashOk h) Ld.KEY_HASH noDetail,
    need (!c.ownKeys || decide (rollbackCounter (c.otpInForce 9) ≤ leAt h 0x14 1)) Ld.ROLLBACK noDetail,
    need ((leAt h 0x15 1).testBit c.mosaic) Ld.MOSAIC noDetail,
    need (decide (leAt h 0x16 1 ≤ (c.word A.DEVICE_REV).toNat % 256)) Ld.STEPPING noDetail]

/-! ### Directory (R162 to R164, R174) -/

/-- One directory entry. -/
structure DirEntry where
  ty : Nat
  inst : Nat
  off : Nat
  size : Nat
  attr : Nat
  tag : List Byte
  /-- Bytes 0x00 to 0x0F as stored. -/
  aad : List Byte
  deriving DecidableEq, Repr

def DirEntry.ofBytes (b : List Byte) : DirEntry :=
  { ty := leAt b 0 2, inst := leAt b 2 2, off := leAt b 4 4, size := leAt b 8 4, attr := leAt b 12 4, tag := sliceOf b 16 16,
    aad := b.take 16 }

/-- End of the directory of an image. -/
def dirEnd (bytes : List Byte) : Nat := 256 + 32 * leAt bytes 0x0C 2

/-- The directory of an image. -/
def dirOf (bytes : List Byte) : List DirEntry :=
  (recordsOf 32 (sliceOf bytes 256 (32 * leAt bytes 0x0C 2))).map DirEntry.ofBytes

/-- A TYPE and an INSTANCE that R164 and R174 know. -/
def typeKnown (ty inst : Nat) : Bool :=
  match ty with
  | 1 => inst == 0xFF || decide (inst ≤ 5)
  | 2 | 3 | 4 | 5 | 8 | 9 | 11 | 12 | 13 | 15 => inst == 0
  | 6 => decide (inst ≤ 5)
  | 7 => decide (inst ≤ 1)
  | 10 => decide (inst ≤ 2)
  | 14 => true
  | _ => false

/-- Directory entry `i` is valid beside the others (R163, R164); the counts of VALE_UNITS and MOVER_UNITS are checked in ADMIT
(`Image.checkSections`). -/
def dirEntryOk (bytes : List Byte) (es : List DirEntry) (e : DirEntry) (i : Nat) : Bool :=
  let enc := decide (leAt bytes 0x0E 1 ≠ 0)
  let floor := match (es.take i).getLast? with
    | none => dirEnd bytes
    | some p => p.off + p.size
  typeKnown e.ty e.inst && e.off % 64 == 0 && decide (1 ≤ e.size) && decide (floor ≤ e.off) &&
    decide (e.off + e.size + 80 ≤ leAt bytes 8 4) && decide (e.attr = enc.toNat) && (enc || allZero e.tag) &&
    (e.ty == Ty.DATA || e.ty == Ty.VALE_UNITS || e.ty == Ty.MOVER_UNITS ||
      (es.take i).all fun p => p.ty != e.ty || p.inst != e.inst) &&
    (!(e.ty == Ty.PLAIN_REGIONS || e.ty == Ty.MEMORY_LOADS) || (es.take i).all fun p => p.ty != Ty.DATA)

/-- Section types that every image has, with their instances. -/
def requiredTypes : List (Nat × Nat) :=
  [(Ty.SCHEDULE, 0xFF), (Ty.READOUT, 0), (Ty.FRONT, 0), (Ty.SADDLE_UNITS, 0), (Ty.QUEUE_TABLE, 0), (Ty.ROUTING, 0),
   (Ty.PLAIN_REGIONS, 0)]

/-- BAD_DIRECTORY. -/
def dirCheck (bytes : List Byte) : Check :=
  let es := dirOf bytes
  (eachOf es fun e i => need (dirEntryOk bytes es e i) Ld.BAD_DIRECTORY i) <|>
    eachOf requiredTypes fun t _ =>
      need (es.any fun e => e.ty == t.1 && e.inst == t.2) Ld.BAD_DIRECTORY (0x8000 + t.1)

/-! ### Sections and signature (R175) -/

/-- Key that ENC selects. -/
def Chip.imageKey (c : Chip) (enc : Nat) : List Byte :=
  if enc = 1 then otpBytes (c.otpInForce 8) 8 32 else beBytes 32 Config.vendorImageKey.toNat

/-- Section `i` of an image, decrypted; none when its tag does not verify. -/
def Chip.decryptSection (c : Chip) (bytes : List Byte) (e : DirEntry) (i : Nat) : Option Section :=
  let ct := sliceOf bytes e.off e.size
  if e.attr = 0 then some ⟨e.ty, e.inst, ct⟩
  else
    let key := c.imageKey (leAt bytes 0x0E 1)
    let iv := sliceOf bytes 0x20 8 ++ beBytes 4 i
    if Crypto.gcmTag key iv e.aad ct = e.tag then some ⟨e.ty, e.inst, Crypto.gcmCrypt key iv ct⟩ else none

/-- The signature verifies. -/
def signatureOk (bytes : List Byte) : Bool :=
  let n := leAt bytes 8 4
  Crypto.ecdsaVerify (sliceOf bytes 0x40 64) (bytes.take (n - 80)) (sliceOf bytes (n - 80) 64)

/-! ### Effects on memory (R180, R185, R189, R190) -/

/-- A range of lines. -/
abbrev inLines (r : Nat × Nat) (a : Nat) : Bool := decide (r.1 / 64 ≤ a) && decide (a < (r.1 + r.2) / 64)

/-- Lines of a range count as never written. -/
def Chip.unmap (c : Chip) (r : Nat × Nat) : Chip :=
  { c with mem := { c.mem with lines := c.mem.lines.filter fun e => !inLines r e.1 } }

/-- Every Basin and pool is filled with zero and correct check bits. -/
def Chip.zeroSram (c : Chip) : Chip :=
  let keep (k : Nat) : Bool := decide (memKey 8 0 ≤ k)
  { c with mem := { c.mem with
      data := c.mem.data.filter fun e : Host.Cell => keep e.1
      chk := c.mem.chk.filter fun e : Host.Cell => keep e.1
      writeBack := c.mem.writeBack.filter fun e : Host.Cell => keep e.1 } }

/-- The loader writes lines of the Plain. -/
def Chip.loadLines : Nat → List (List Byte) → Chip → Chip
  | _, [], c => c
  | a, l :: ls, c => Chip.loadLines (a + 1) ls (c.plainWriteLine a (l.map MByte.clean))

/-- Ranges of the running image's regions, for a hot load. -/
def Chip.liveSpans (c : Chip) (hot : Bool) : List (Nat × Nat) := if hot then c.image.regionSpans else []

/-- A DATA section has arrived: regions and loads that it fills take their bytes (R185). -/
def Chip.dataArrived (c : Chip) (l : Loading) (i : Nat) (body : List Byte) : Loading × Chip :=
  let im : Image := { header := [], sections := l.sections }
  let fills := im.regions.filter fun r => r.fill == 3 && r.src == i && r.base % 64 == 0 && r.size % 64 == 0 &&
    decide (r.base + r.size ≤ 0x40000000) && decide (r.srcOfs + r.size ≤ body.length) &&
    (c.liveSpans l.hot).all fun o => !overlap o (r.base, r.size)
  let loads := if l.hot then [] else im.memLoads.filter fun m => m.src == i && decide (m.dest ≤ 7) &&
    decide (m.srcOfs + m.size ≤ body.length) && (m.dest != 0 || inBasins (m.off, m.size))
  let c := fills.foldl (fun c r =>
    Chip.loadLines (r.base / 64) (groupsOf 64 (r.size / 64) (sliceOf body r.srcOfs r.size)) c) c
  let c := loads.foldl (fun c m => c.memWrite m.dest m.off ((sliceOf body m.srcOfs m.size).map MByte.clean)) c
  ({ l with wrote := l.wrote ++ fills.map fun r => (r.base, r.size) }, c)

/-! ### Loading in place -/

/-- Change the loader. -/
abbrev Chip.setLoader (c : Chip) (f : Loader → Loader) : Chip := { c with loader := f c.loader }

/-- Put a load in place. -/
abbrev Chip.setLoad (c : Chip) (l : Option Loading) : Chip := c.setLoader fun x => { x with load := l }

/-- The load in progress, when it has not failed. -/
def Chip.loading (c : Chip) : Option Loading :=
  match c.loader.load with
  | some l => if l.failed.isNone then some l else none
  | none => none

/-- The image that a load has brought. -/
def Loading.image (l : Loading) : Image := { header := l.bytes.take 256, sections := l.sections }

/-- IMG_LOAD_TIME takes the time of a load, and its end interrupts (R186, R535). -/
def Chip.loadTimed (c : Chip) (l : Loading) : Chip :=
  (c.put A.IMG_LOAD_TIME (Word.of (min 0xFFFFFFFF ((c.now - l.started) / 1000)))).raise F.HIF_IRQ_STATUS.IMAGE

/-- HOLD_REASON that a code gives (R187). -/
def Chip.holdReason (c : Chip) (code : Nat) : Nat :=
  if code = Ld.KEY_HASH ∧ c.keyUnset = true then 8
  else if code ≤ 2 ∨ code = Ld.BAD_DIRECTORY then 2
  else if code = Ld.KEY_POLICY ∨ code = Ld.KEY_HASH ∨ code = Ld.GCM_TAG ∨ code = Ld.SIGNATURE then 3
  else if code = Ld.BAD_TRAILER ∨ (0x0B ≤ code ∧ code ≤ 0x0D) then 6
  else if code = Ld.ROLLBACK then 4
  else 5

/-- No image is admitted any more (R138, R189). TICK_STATUS.RATE, SLAVED and SLAVE_STATE keep the codes of the image that goes
(DEDUCED: no rule clears them; log entry 103). -/
def Chip.discardImage (c : Chip) : Chip :=
  let c := { c.setLoader (fun x => { x with image := none, record := [] }) with layers := [] }
  let c := (c.setBit F.DEV_STATE.IMAGE_OK false).put A.IMG_ID 0
  let c := ((c.set F.IMG_ROLLBACK.IMAGE 0).setBit F.IMG_STATUS.SLOT_B false).set F.SCHED_STATUS.ENTRIES 0
  (c.setBit F.TICK_STATUS.FALLBACK false).set F.TICK_STATUS.FALLBACK_VALE 7

/-- A load has failed for good (R184, R187, R190, R193); its clean-up follows. -/
def Chip.loadFailed (c : Chip) (l : Loading) (code detail : Nat) : Chip :=
  let c := (c.set F.IMG_STATUS.ERROR code).set F.IMG_STATUS.DETAIL detail
  let c := c.setLoader fun x => { x with load := some { l with failed := some code },
                                         pushEnded := x.pushEnded || l.source == .push }
  let c := l.wrote.foldl Chip.unmap c
  let c := if l.hot then c.alert Code.HOT_LOAD_FAIL noUnit code
    else ((c.discardImage.zeroSram).set F.DEV_STATE.HOLD_REASON (c.holdReason code)).alert Code.LOAD_FAIL noUnit code
  c.loadTimed l

/-- A slot of the boot flash is read from its start (R179, R181). -/
def Chip.readSlot (c : Chip) (source : LoadSource) (slotA : Option (Nat × Nat)) (started : Nat) : Chip :=
  (c.setLoad (some { source := source, hot := false, bytes := [], trailer := [], sections := [], wrote := [],
                     failed := none, slotA := slotA, started := started })).set F.IMG_STATUS.PHASE 1

/-- A load fails: slot A of a flash load gives way to slot B; of two failed slots, B's failure is reported when B held a valid MAGIC
(R181). -/
def Chip.loadFail (c : Chip) (l : Loading) (code detail : Nat) : Chip :=
  match l.source with
  | .push => c.loadFailed l code detail
  | .flashA =>
    let c := l.wrote.foldl Chip.unmap c.zeroSram
    let c := (c.set F.IMG_FLASH.ERR_A code).raise F.IMG_FLASH.B_TRIED
    c.readSlot .flashB (some (code, detail)) l.started
  | .flashB =>
    let c := c.set F.IMG_FLASH.ERR_B code
    match l.slotA with
    | some a => if l.bytes.take 4 = magic then c.loadFailed l code detail else c.loadFailed l a.1 a.2
    | none => c.loadFailed l code detail

/-- The last byte of a load so far completes a section: it is decrypted and checked (R175, R185). -/
def Chip.sectionCheck (c : Chip) (l : Loading) : Check × Loading × Chip :=
  match (dirOf l.bytes).zipIdx.find? fun e => e.1.off + e.1.size == l.bytes.length with
  | none => (none, l, c)
  | some e =>
    match c.decryptSection l.bytes e.1 e.2 with
    | none => (some (Ld.GCM_TAG, e.2), l, c)
    | some s =>
      let l := { l with sections := l.sections ++ [s] }
      let r := if s.ty = Ty.DATA then c.dataArrived l e.2 s.body else (l, c)
      (none, r.1, r.2)

/-- What the last byte of a load so far makes possible to check (R184, R186), and the load with the section it completes. The
directory is checked at its last byte, or at the image's where the directory runs past it; STREAM begins once it passes (R185). -/
def Chip.byteCheck (c : Chip) (l : Loading) : Check × Loading × Chip :=
  let n := l.bytes.length
  let same (k : Check) : Check × Loading × Chip := (k, l, c)
  if n = 4 then same (need (l.bytes == magic) Ld.NO_MAGIC noDetail)
  else if n = 12 then same (need (totalOk (leAt l.bytes 8 4)) Ld.BAD_HEADER noDetail)
  else if n = 256 then same (c.headerCheck l.bytes)
  else if n < 256 then same none
  else
    let total := leAt l.bytes 8 4
    let trailer := if n = total then
        need (l.source != .push || trailerOk l.bytes (l.bytes.drop (n - 16))) Ld.BAD_TRAILER noDetail
      else none
    match trailer <|> (if n = min (dirEnd l.bytes) total then dirCheck l.bytes else none) with
    | some e => same (some e)
    | none =>
      if n ≤ dirEnd l.bytes then (none, l, if n = dirEnd l.bytes then c.set F.IMG_STATUS.PHASE 2 else c)
      else c.sectionCheck l

/-- The load has all of its bytes (R185). -/
def Loading.complete (l : Loading) : Bool := decide (256 ≤ l.bytes.length) && l.bytes.length == leAt l.bytes 8 4

/-- One byte of an image arrives. -/
def Chip.loadByte (c : Chip) (l : Loading) (b : Byte) : Chip :=
  let l := { l with bytes := l.bytes ++ [b] }
  match c.byteCheck l with
  | (some e, l, c) => c.loadFail l e.1 e.2
  | (none, l, c) =>
    if l.complete then
      (c.set F.IMG_STATUS.PHASE 3).setLoader fun x =>
        { x with load := some l, pushEnded := x.pushEnded || l.source == .push }
    else c.setLoad (some l)

/-! ### Pushes (R182 to R184) -/

/-- The load in progress, when it still takes bytes. -/
def Chip.taking (c : Chip) : Option Loading :=
  match c.loading with
  | some l => if l.complete then none else some l
  | none => none

/-- A ready hot image is discarded; its lines count as never written. -/
def Chip.discardHot (c : Chip) : Chip :=
  match c.loader.hot with
  | none => c
  | some im =>
    let spans := (im.regions.filter fun r => r.fill != 0).map fun r => (r.base, r.size)
    let c := spans.foldl Chip.unmap (c.setLoader fun x => { x with hot := none })
    (c.setBit F.IMG_STATUS.HOT_READY false).put A.IMG_HOT_ID 0

/-- A load begins: what IMG_STATUS shows of the one before is cleared. -/
def Chip.loadBegins (c : Chip) (hot : Bool) : Chip :=
  let c := ((c.set F.IMG_STATUS.ERROR 0).set F.IMG_STATUS.DETAIL noDetail).setBit F.IMG_STATUS.HOT hot
  (c.raise F.IMG_STATUS.BUSY).set F.IMG_STATUS.PHASE 1

/-- IMG_CTRL.START (R180, R182, R183, R193). -/
def Chip.loadStart (c : Chip) : Chip :=
  if !c.dev.portsAnswer then c
  else if c.dev.open && c.lifecycle != 5 && c.loader.load.isNone && c.otp.job.isNone then
    let hot := c.dev.ticking
    let c := c.keysInForce
    let c := ((if hot then c.discardHot else c.zeroSram).loadBegins hot).put A.IMG_PUSH_COUNT 0
    c.setLoader fun x => { x with
      load := some { source := .push, hot := hot, bytes := [], trailer := [], sections := [], wrote := [], failed := none,
                     slotA := none, started := c.now }
      pushEnded := false, overrunSeen := false }
  else c.alert Code.PUSH_IGNORED noUnit 0

/-- START. -/
def execStart (s : State) : Host.Outcome State Fault Refusal := act .start (fun _ c => c.loadStart) s

/-- The push in progress, when it still takes bytes. -/
def Chip.pushTaking (c : Chip) : Option Loading :=
  match c.taking with
  | some l => if l.source = .push then some l else none
  | none => none

/-- IMG_CTRL.ABORT. -/
def Chip.loadAbort (c : Chip) : Chip :=
  if c.dev.open then
    match c.pushTaking with
    | some l => c.loadFail l Ld.ABORTED noDetail
    | none => c
  else c

/-- ABORT. -/
def execAbort (s : State) : Host.Outcome State Fault Refusal := act .abort (fun _ c => c.loadAbort) s

/-- The first byte of a push in HOLD takes IMAGE_OK back (R142). No rule names the HOLD_REASON of that load, and R137 forbids READY
and STOPPED beside IMAGE_OK 0: those become INCOMPLETE, a load not yet ended (DESIGN CHOICE, log entry 104). -/
def Chip.imageLeaves (c : Chip) : Chip :=
  let c := c.setBit F.DEV_STATE.IMAGE_OK false
  if c.fld F.DEV_STATE.HOLD_REASON = 0 ∨ c.fld F.DEV_STATE.HOLD_REASON = 7 then c.set F.DEV_STATE.HOLD_REASON 6 else c

/-- A byte written to the push aperture. -/
def Chip.pushByte (c : Chip) (b : Byte) : Chip :=
  match c.pushTaking with
  | some l =>
    let c := c.countWrap F.IMG_PUSH_COUNT.BYTES 1
    (if l.hot then c else c.imageLeaves).loadByte l b
  | none =>
    if !c.dev.portsAnswer then c
    else if c.loader.pushEnded then
      if c.loader.overrunSeen then c
      else (c.setLoader fun x => { x with overrunSeen := true }).alert Code.PUSH_OVERRUN noUnit 0
    else c.alert Code.PUSH_IGNORED noUnit 0

/-- PUSH_BYTE. -/
def execPushByte (b : Byte) (s : State) : Host.Outcome State Fault Refusal := act (.pushByte b) (fun _ c => c.pushByte b) s

/-- PUSH_TIMEOUT; with IMG_TIMEOUT 0 there is none. -/
def Chip.pushTimeout (c : Chip) : Chip :=
  if c.fld F.IMG_TIMEOUT.MS = 0 then c
  else match c.pushTaking with
    | some l => c.loadFail l Ld.TIMEOUT noDetail
    | none => c

/-- PUSH_TIMEOUT. -/
def execPushTimeout (s : State) : Host.Outcome State Fault Refusal := act .pushTimeout (fun _ c => c.pushTimeout) s

/-! ### The boot flash (R135, R179, R181) -/

/-- LOAD reads no flash (R135). -/
def Chip.skipsFlash (c : Chip) (reload : Bool) : Bool :=
  (c.bit F.STRAPS.BOOT_SRC && !reload) || c.lifecycle == 5 || c.keyUnset

/-- HOLD_REASON of a LOAD that reads no flash (R136): the first of R135's reasons that holds (log entry 97). -/
def Chip.skipReason (c : Chip) (reload : Bool) : Nat :=
  if c.bit F.STRAPS.BOOT_SRC && !reload then 1 else if c.lifecycle = 5 then 9 else 8

/-- The device enters LOAD: from SELFTEST, or by RELOAD, which abandons a Survey scan (R256). -/
def Chip.enterLoad (c : Chip) (reload : Bool) : Chip :=
  let c := { c.keysInForce.enter .load with
    startup := { c.startup with fromReload := reload }
    survey := { c.survey with scan := none, busy := false } }
  if c.skipsFlash reload then c.discardImage.set F.DEV_STATE.HOLD_REASON (c.skipReason reload)
  else
    let c := ((c.zeroSram.setBit F.DEV_STATE.IMAGE_OK false).loadBegins false).put A.IMG_FLASH 0
    c.readSlot .flashA none c.now

/-- Bytes arrive one by one until the load of this slot fails or has all of them. -/
def Chip.flashBytes (slot : LoadSource) : List Byte → Chip → Chip
  | [], c => c
  | b :: bs, c =>
    match c.taking with
    | some l => if l.source = slot then Chip.flashBytes slot bs (c.loadByte l b) else c
    | none => c

/-- A slot's read ended before all that it was to bring. -/
def Chip.flashShort (c : Chip) (slot : LoadSource) (enough : Loading → Bool) : Chip :=
  match c.taking with
  | some l => if l.source = slot && !enough l then c.loadFail l Ld.TRUNCATED noDetail else c
  | none => c

/-- A read that the device issues to the boot flash (R179): command, 4-byte address, bytes, the lines of command, address and data,
dummy cycles and BF_SCK. -/
structure FlashRead where
  command : Nat
  address : Nat
  bytes : Nat
  lines : Nat × Nat × Nat
  dummy : Nat
  mhz : Nat
  deriving DecidableEq, Repr

/-- Flash address of a slot. -/
def LoadSource.base : LoadSource → Nat
  | .flashB => 0x08000000
  | _ => 0

/-- A read in a BF_MODE. -/
def FlashRead.ofMode (mode address bytes : Nat) : FlashRead :=
  match mode with
  | 0 => ⟨0x0C, address, bytes, (1, 1, 1), 8, 25⟩
  | 1 => ⟨0x6C, address, bytes, (1, 1, 4), 8, 50⟩
  | _ => ⟨0x6C, address, bytes, (1, 1, 4), 8, 100⟩

/-- The read that a load of a slot waits for: its header, then its trailer, then the rest. -/
def Loading.flashRead (l : Loading) : Option FlashRead :=
  let base := l.source.base
  let total := leAt l.bytes 8 4
  if l.source = .push then none
  else if l.bytes.isEmpty then some (FlashRead.ofMode 0 base 256)
  else if l.trailer.isEmpty then some (FlashRead.ofMode 0 (base + total - 16) 16)
  else some (FlashRead.ofMode (leAt l.bytes 0x1C 1) (base + 256) (total - 272))

/-- The read in progress on the boot flash. -/
def Chip.flashRequest (c : Chip) : Option FlashRead := c.taking.bind Loading.flashRead

/-- FLASH_READ_DONE: the header read, then the trailer read, then the rest of a slot, to which the trailer is added. A read that
brings less than was asked for ends the slot with TRUNCATED, but for what its bytes fail. -/
def Chip.flashRead (c : Chip) (bs : List Byte) : Chip :=
  match c.taking with
  | none => c
  | some l =>
    match l.flashRead with
    | none => c
    | some q =>
      let bs := bs.take q.bytes
      if l.bytes.isEmpty then
        (Chip.flashBytes l.source bs c).flashShort l.source fun x => decide (q.bytes ≤ x.bytes.length)
      else if l.trailer.isEmpty then
        if bs.length < q.bytes then c.loadFail l Ld.TRUNCATED noDetail
        else if trailerOk l.bytes bs then c.setLoad (some { l with trailer := bs })
        else c.loadFail l Ld.BAD_TRAILER noDetail
      else if bs.length < q.bytes then (Chip.flashBytes l.source bs c).flashShort l.source fun _ => false
      else Chip.flashBytes l.source (bs ++ l.trailer) c

/-- FLASH_READ_DONE. -/
def execFlashReadDone (bytes : List Byte) (s : State) : Host.Outcome State Fault Refusal :=
  act (.flashReadDone bytes) (fun _ c => c.flashRead bytes) s

/-! ### VERIFY, ADMIT, FILL -/

/-- The load in progress, when it is in a phase. -/
def Chip.inPhase (c : Chip) (p : Nat) : Option Loading := if c.fld F.IMG_STATUS.PHASE = p then c.loading else none

/-- VERIFY ends. -/
def Chip.loadVerified (c : Chip) : Chip :=
  match c.inPhase 3 with
  | none => c
  | some l => if signatureOk l.bytes then c.set F.IMG_STATUS.PHASE 4 else c.loadFail l Ld.SIGNATURE noDetail

/-- VERIFY_DONE. -/
def execVerifyDone (s : State) : Host.Outcome State Fault Refusal := act .verifyDone (fun _ c => c.loadVerified) s

/-- What an image's passing admission shows at once (R19, R69, R111, R194, R222, R320, R490): its identity, the tick's codes and
defaults, the readout, the routing and the Vales' clocks. A hot image shows it when it comes into force (R192). -/
def Chip.showAdmitted (c : Chip) (im : Image) : Chip :=
  let t := im.primary
  let rt := im.body Ty.ROUTING 0
  let c := ((c.put A.IMG_ID (Word.of im.imageId)).set F.TICK_STATUS.RATE t.rate).setBit F.TICK_STATUS.SLAVED (t.mode == 1)
  let c := if t.mode = 1 then c else c.set F.TICK_STATUS.SLAVE_STATE 0
  let c := ((c.showReadout im.readout).set F.PASS_ROUTE.ORDER (leAt rt 2 1)).set F.PASS_ROUTE.W_RESULT (leAt rt 4 1)
  let c := (c.set F.PASS_ROUTE.W_BULK (leAt rt 5 1)).set F.PASS_ROUTE.W_MAINT (leAt rt 6 1)
  let c := (c.set F.TICK_CTRL.HOLDOVER_MAX t.holdover).set F.TICK_CTRL.FSO_WIDTH t.fsoWidth
  let c := (c.set F.TICK_CTRL.FSO_OFFSET t.fsoOffset).set F.FSYNC_CFG.FSYNC_WAIT t.fsyncWait
  c.declareClocks (c.tableOf im)

/-- ADMIT ends. -/
def Chip.loadAdmitted (c : Chip) : Chip :=
  match c.inPhase 4 with
  | none => c
  | some l =>
    match c.admission l.image l.hot with
    | some e => c.loadFail l e.1 e.2
    | none =>
      let c := c.set F.IMG_STATUS.PHASE 5
      if l.hot then c
      else (c.setLoader fun x => { x with record := l.image.body Ty.PLAIN_REGIONS 0 }).showAdmitted l.image

/-- ADMIT_DONE. -/
def execAdmitDone (s : State) : Host.Outcome State Fault Refusal := act .admitDone (fun _ c => c.loadAdmitted) s

/-- The zero and pattern fills of an image (R168). -/
def Chip.fillRegions (c : Chip) (im : Image) : Chip :=
  (im.regions.filter fun r => r.fill == 1 || r.fill == 2).foldl (fun c r =>
    let line := if r.fill = 1 then List.replicate 64 0 else (List.replicate 8 r.pattern).flatMap id
    Chip.loadLines (r.base / 64) (List.replicate (r.size / 64) line) c) c

/-- Each seat's initial weights go to its bank 0 (R371). -/
def Chip.placeInitial (c : Chip) (im : Image) : Chip :=
  im.layerRecs.foldl (fun c r =>
    let base := ((im.regions.find? fun g => g.id == r.region).map fun g : Region => g.base).getD 0
    r.seats.foldl (fun c s =>
      let (bs, c) := c.memRead .engine 8 (base + r.masterOfs + s.expert * r.wsize) r.wsize
      c.memWrite (s.vale + 2) s.bank0 bs) c) c

/-- What an image's coming into force shows and starts: its rollback version, its experts and its register defaults (R171, R194,
R371). -/
def Chip.showImage (c : Chip) (fz : Fuses) (im : Image) : Chip :=
  let c := c.set F.IMG_ROLLBACK.IMAGE im.rollback
  { c with layers := im.layerRecs.map LayerRec.initial }.applyDefaults fz im.regDefaults

/-- The queue table of an image is written over zeroed Basins (R481). -/
def Chip.writeQueues (c : Chip) (im : Image) : Chip :=
  im.queues.foldl (fun c q => c.memWrite 0 (32 * q.1) (q.2.map MByte.clean)) c

/-- A load from HOLD or LOAD has succeeded: its image is in force and held ready (R136, R185). -/
def Chip.imageReady (c : Chip) (fz : Fuses) (l : Loading) : Chip :=
  let im := l.image
  let c := (c.setLoader fun x => { x with image := some im }).writeQueues im
  let c := { c with sched := { c.sched with tableVale := none } }
  let c := ((c.placeInitial im).showImage fz im).set F.SCHED_STATUS.ENTRIES im.primary.count
  let c := c.setBit F.IMG_STATUS.SLOT_B (l.source == .flashB)
  let c := match l.slotA with
    | some a => c.alert Code.SLOT_A_FAIL noUnit a.1
    | none => c
  (c.raise F.DEV_STATE.IMAGE_OK).set F.DEV_STATE.HOLD_REASON 0

/-- FILL ends: the image is ready, or the hot image is (R185, R191). -/
def Chip.loadFilled (c : Chip) (fz : Fuses) : Chip :=
  match c.inPhase 5 with
  | none => c
  | some l =>
    let im := l.image
    let c := c.fillRegions im
    let c :=
      if l.hot then
        ((c.setLoader fun x => { x with hot := some im }).raise F.IMG_STATUS.HOT_READY).put A.IMG_HOT_ID (Word.of im.imageId)
      else c.imageReady fz l
    (((c.set F.IMG_STATUS.PHASE 6).setBit F.IMG_STATUS.BUSY false).setLoad none).loadTimed l

/-- LOAD_FILL_DONE. -/
def execLoadFillDone (s : State) : Host.Outcome State Fault Refusal := act .loadFillDone (fun fz c => c.loadFilled fz) s

/-- The clean-up of a failed load ends (R184). -/
def Chip.loadCleaned (c : Chip) : Chip :=
  match c.loader.load with
  | none => c
  | some l => if l.failed.isSome then (c.setLoad none).setBit F.IMG_STATUS.BUSY false else c

/-- LOAD_CLEANUP_DONE. -/
def execLoadCleanupDone (s : State) : Host.Outcome State Fault Refusal := act .loadCleanupDone (fun _ c => c.loadCleaned) s

/-- A stop is accepted during a hot load, or with a hot image ready: it is discarded with ABORTED (R193). R193 names fault 0x0202 in
its case 'It fails' only, so none is recorded here (DEDUCED, log entry 107). -/
def Chip.stopHot (c : Chip) : Chip :=
  let marked (c : Chip) : Chip := (c.set F.IMG_STATUS.ERROR Ld.ABORTED).set F.IMG_STATUS.DETAIL noDetail
  match c.loading with
  | some l =>
    let c := (marked (l.wrote.foldl Chip.unmap c)).setLoader fun x =>
      { x with load := some { l with failed := some Ld.ABORTED }, pushEnded := true }
    c.loadTimed l
  | none => if c.loader.hot.isSome then marked c.discardHot else c

/-! ### The swap (R192) -/

/-- A swap is due at the tick edge: a hot image is ready, and SWAP_ARM is 1 from that edge on at the latest; a write in the edge's own
TICK cycle comes too late (R20). -/
def Chip.swapDue (c : Chip) : Bool :=
  c.dev.ticking && !c.bit F.DEV_STATE.STOPPING && c.loader.hot.isSome &&
    (c.wordAtEdge A.IMG_CTRL).getLsbD 2

/-- The ready hot image comes into force; the running image's spill work keeps its own wiring for this tick. -/
def Chip.swap (c : Chip) (fz : Fuses) : Chip :=
  match c.loader.hot with
  | none => c
  | some im =>
    let old := c.loader.image
    let c := c.setLoader fun x =>
      { x with image := some im, hot := none, old := old, released := false, record := im.body Ty.PLAIN_REGIONS 0 }
    let c := { c with sched := { c.sched with swapTick := true }, layersOld := c.layers.map Layer.spill,
                      front := c.front.map fun f : FrontFrame => { f with old := true } }
    let c := (c.setBit F.IMG_STATUS.HOT_READY false).put A.IMG_HOT_ID 0
    ((c.setBit F.IMG_STATUS.SLOT_B false).showAdmitted im).showImage fz im

end Sys2Proof.Machine
end

