-- ==== Sys2Proof/Machine/Slaving.lean ====
section
/-!
DEFINITION. Machine/Slaving.lean: the loop that slaves the tick to FSYNC_IN (R76 to R84). Instants are picoseconds on the
origin of `Chip.now`.
-/
namespace Sys2Proof.Machine

/-! ### States and lengths -/

/-- Slaving states (R78). -/
abbrev Slave.free : Nat := 0
abbrev Slave.acquire : Nat := 1
abbrev Slave.locked : Nat := 2
abbrev Slave.holdover : Nat := 3

/-- The slaving state. -/
abbrev Chip.slaveState (c : Chip) : Nat := c.fld F.TICK_STATUS.SLAVE_STATE

/-- The loop enters a state. -/
abbrev Chip.slaveTo (c : Chip) (x : Nat) : Chip := c.set F.TICK_STATUS.SLAVE_STATE x

/-- TICK cycles of a tick at a RATE code (R69). -/
def tickCycles (rate : Nat) : Nat := 4096 * slotCycles rate

/-- Cycles of 122.88 MHz in picoseconds, rounded down. -/
def cyclesPs (n : Nat) : Nat := n * 100000000 / 12288

/-- T in picoseconds, rounded down. -/
def Chip.tickPs (c : Chip) : Nat := cyclesPs (tickCycles c.rate)

/-- An interval lies from 0.995·T to 1.005·T, both ends included (R79). -/
def inPeriod (rate : Nat) (d : Int) : Bool :=
  let t : Int := tickCycles rate
  decide (199 * t * 100000000 ≤ d * 2457600) && decide (d * 2457600 ≤ 201 * t * 100000000)

/-- A tick length brought within 0.995·T and 1.005·T (R80). -/
def boundLength (rate : Nat) (d : Int) : Int :=
  let t : Int := tickCycles rate
  clampInt ((199 * t * 100000000 + 2457599) / 2457600) (201 * t * 100000000 / 2457600) d

/-- Change the tick sequencer's own state. -/
abbrev Chip.setSched (c : Chip) (f : Sched → Sched) : Chip := { c with sched := f c.sched }

/-! ### Accepted edges -/

/-- Phase error of an edge against the expected edge of its tick, by the shorter way round the tick. -/
def Chip.phaseError (c : Chip) (a : Int) : Int :=
  let l : Int := max 1 (Int.ofNat c.sched.length)
  let d := (a - c.sched.expected) % l
  if c.sched.starting then 0 else if 2 * d ≤ l then d else d - l

/-- The FSYNC_IN period that an accepted edge measures: its distance from the accepted edge before. Where that lies outside 0.995·T to
1.005·T (LOCKED again after HOLDOVER, with edges several ticks apart) R80 gives no length, and the period measured before stays
(log entry 85). -/
def Chip.measuredPeriod (c : Chip) (a : Int) : Nat :=
  match c.sched.lastEdge with
  | some p => if inPeriod c.rate (a - p) then (a - p).toNat else c.sched.period
  | none => c.sched.period

/-- The phase error that an edge leaves to correct (R81): of an edge after its tick's own, the tick in progress corrects a part
already. -/
def Chip.phaseLeft (c : Chip) (a : Int) : Int :=
  let err := c.phaseError a
  if 0 ≤ err && !c.sched.starting then err - (Int.ofNat c.sched.length - Int.ofNat (c.measuredPeriod a)) else err

/-- What every accepted edge leaves (R79, R80, R81, R111). -/
def Chip.noteEdge (c : Chip) (a : Int) : Chip :=
  let err := c.phaseError a
  let period := c.measuredPeriod a
  let left := c.phaseLeft a
  let c := (c.set F.FSYNC_PHASE.PHASE (patternOf 32 (clampInt (-2147483647) 2147483647 err))).set F.SLAVE_EVENTS.MISS_COUNT 0
  c.setSched fun s =>
    { s with
      period := period
      lastEdge := some a
      edgeNew := true
      idleTicks := 0
      phase := left
      goodEdges := if err.natAbs ≤ 2000 then s.goodEdges + 1 else 0
      badEdges := if 20000 < err.natAbs then s.badEdges + 1 else 0 }

/-- The window that accepted the last edge, used up, and the one that opens from that edge (R79). -/
def windowsFrom (a : Int) (ws : List (Int × Bool)) : List (Int × Bool) :=
  let used := ws.filter fun w : Int × Bool => w.2
  used.drop (used.length - 1) ++ [(a, false)]

/-- The loop enters ACQUIRE, its last accepted edge the reference of the next window. -/
def Chip.toAcquire (c : Chip) (a : Int) : Chip :=
  (c.slaveTo Slave.acquire).setSched fun s =>
    { s with goodEdges := 0, badEdges := 0, idleTicks := 0, missed := 0, windows := windowsFrom a s.windows }

/-- The loop loses its lock: LOCKED or HOLDOVER to ACQUIRE (R82). -/
def Chip.lockLost (c : Chip) (a : Int) : Chip :=
  ((c.raise F.SLAVE_EVENTS.LOCK_LOST).alert Code.LOCK_LOST noUnit 0).toAcquire a

/-- The loop goes to FREE (R82). -/
def Chip.toFree (c : Chip) : Chip :=
  (c.slaveTo Slave.free).setSched fun s => { s with windows := [], freeEdges := [], missed := 0, idleTicks := 0 }

/-- An edge is accepted in ACQUIRE, LOCKED or HOLDOVER (R81, R82). -/
def Chip.acceptEdge (c : Chip) (a : Int) : Chip :=
  let st := c.slaveState
  let c := c.noteEdge a
  if st = Slave.acquire then
    let c := c.setSched fun s => { s with windows := windowsFrom a s.windows }
    if 4 ≤ c.sched.goodEdges then (c.slaveTo Slave.locked).setSched fun s => { s with badEdges := 0 } else c
  else if st = Slave.locked then (if 2 ≤ c.sched.badEdges then c.lockLost a else c)
  else if c.sched.badEdges = 0 then (c.slaveTo Slave.locked).setSched fun s => { s with missed := 0 }
  else c.lockLost a

/-! ### Windows -/

/-- The first unused window that an edge lies in is used up. -/
def useWindow (rate : Nat) (a : Int) : List (Int × Bool) → Option (List (Int × Bool))
  | [] => none
  | (r, used) :: ws =>
    if used = false ∧ inPeriod rate (a - r) = true then some ((r, true) :: ws)
    else (useWindow rate a ws).map fun vs => (r, used) :: vs

/-- A rising edge where windows are open (R79). -/
def Chip.windowEdge (c : Chip) (a : Int) : Chip :=
  match useWindow c.rate a c.sched.windows with
  | some ws => (c.setSched fun s => { s with windows := ws }).acceptEdge a
  | none =>
    if c.slaveState = Slave.acquire ∧ c.sched.lastEdge.isNone then c.acceptEdge a
    else if c.sched.windows.any fun w : Int × Bool => inPeriod c.rate (a - w.1) then c.raise F.SLAVE_EVENTS.EXTRA_EDGE
    else c.raise F.SLAVE_EVENTS.OUT_OF_WINDOW

/-- A rising edge counted in FREE: the fourth in a row from 0.995·T to 1.005·T apart leads to ACQUIRE, as its first accepted
edge (R79, R82). -/
def Chip.freeEdge (c : Chip) (a : Int) : Chip :=
  let es := match c.sched.freeEdges with
    | [] => [a]
    | b :: bs => if inPeriod c.rate (a - b) then a :: b :: bs else [a]
  if 4 ≤ es.length then
    let c := (c.toAcquire a).setSched fun s => { s with freeEdges := [], lastEdge := es[1]? }
    c.noteEdge a
  else c.setSched fun s => { s with freeEdges := es }

/-- A rising edge reaches the slaving loop. -/
def Chip.slaveEdge (c : Chip) (a : Int) : Chip :=
  if c.slaveState = Slave.free then c.freeEdge a else c.windowEdge a

/-- FSYNC_EDGE: a rising edge at `ps`, followed by a high level of `ns` (R77, R79, R253, R546). -/
def Chip.fsyncEdge (c : Chip) (ns ps : Nat) : Chip :=
  if c.dev.ticking && decide (20 ≤ ns) then
    let c := c.edgeSetsTime ps
    let c := if c.fld F.SRV_CFG.TRIG_SRC = 2 then c.srvTrigger 4 else c
    if c.bit F.TICK_STATUS.SLAVED then c.slaveEdge ps else c
  else c

/-- FSYNC_EDGE. -/
def execFsyncEdge (highNs atPs : Nat) (s : State) : Host.Outcome State Fault Refusal :=
  act (.fsyncEdge highNs atPs) (fun _ c => c.fsyncEdge highNs atPs) s

/-- The oldest window that has accepted no edge, taken away. -/
def dropUnused : List (Int × Bool) → Option (List (Int × Bool))
  | [] => none
  | (r, used) :: ws => if used then (dropUnused ws).map fun vs => (r, used) :: vs else some ws

/-- WINDOW_MISSED: the oldest open window closes without an accepted edge (R79, R82). -/
def Chip.windowMissed (c : Chip) : Chip :=
  if c.dev.ticking then
    match dropUnused c.sched.windows with
    | none => c
    | some ws =>
      let c := c.setSched fun s => { s with windows := ws }
      let c := (c.raise F.SLAVE_EVENTS.MISSED).count F.SLAVE_EVENTS.MISS_COUNT 1
      if c.slaveState = Slave.locked then (c.slaveTo Slave.holdover).setSched fun s => { s with missed := 0 }
      else if c.slaveState = Slave.holdover then c.setSched fun s => { s with missed := s.missed + 1 }
      else c
  else c

/-- WINDOW_MISSED. -/
def execWindowMissed (s : State) : Host.Outcome State Fault Refusal := act .windowMissed (fun _ c => c.windowMissed) s

/-- FSYNC_ABSENT: FSYNC_WAIT ticks in ACQUIRE without an accepted edge (R82). -/
def Chip.fsyncAbsent (c : Chip) : Chip :=
  if c.dev.ticking ∧ c.slaveState = Slave.acquire ∧ max 1 (c.live F.FSYNC_CFG.FSYNC_WAIT) ≤ c.sched.idleTicks then
    (c.alert Code.FSYNC_ABSENT noUnit 0).toFree
  else c

/-- FSYNC_ABSENT. -/
def execFsyncAbsent (s : State) : Host.Outcome State Fault Refusal := act .fsyncAbsent (fun _ c => c.fsyncAbsent) s

/-- SLAVE_LOST: HOLDOVER_MAX consecutive windows missed in HOLDOVER (R82). -/
def Chip.slaveLost (c : Chip) : Chip :=
  if c.dev.ticking ∧ c.slaveState = Slave.holdover ∧ max 1 (c.live F.TICK_CTRL.HOLDOVER_MAX) ≤ c.sched.missed then
    ((c.raise F.SLAVE_EVENTS.SLAVE_LOST).alert Code.SLAVE_LOST noUnit 0).toFree
  else c

/-- SLAVE_LOST. -/
def execSlaveLost (s : State) : Host.Outcome State Fault Refusal := act .slaveLost (fun _ c => c.slaveLost) s

/-! ### The tick edge -/

/-- Entry to RUN: slaved mode begins in ACQUIRE, without a reference (R79, R82). -/
def Chip.slaveEnterRun (c : Chip) : Chip :=
  let t := c.tickPs
  (c.slaveTo (if c.bit F.TICK_STATUS.SLAVED then Slave.acquire else Slave.free)).setSched fun s =>
    { s with expected := 0, lastEdge := none, edgeNew := false, period := t, lockedLen := t, length := t, phase := 0,
             idleTicks := 0, goodEdges := 0, badEdges := 0, missed := 0, freeEdges := [], windows := [] }

/-- The correction that ACQUIRE makes in a tick (R81). -/
def Chip.acquireStep (c : Chip) : Int :=
  let s := c.sched
  let q : Int := tickCycles c.rate * 100000000 / 4915200
  let d := if 0 ≤ s.phase then min q s.phase else max (-q) s.phase
  if boundLength c.rate (Int.ofNat s.period + d) = Int.ofNat s.period + d then d else if 0 ≤ d then -q else q

/-- Length of the tick that begins (R80). -/
def Chip.nextLength (c : Chip) : Int :=
  let s := c.sched
  if c.slaveState = Slave.locked then boundLength c.rate s.period
  else if c.slaveState = Slave.holdover then s.lockedLen
  else if c.slaveState = Slave.acquire ∧ s.lastEdge.isSome then boundLength c.rate (Int.ofNat s.period + c.acquireStep)
  else c.tickPs

/-- The window that a tick in LOCKED or HOLDOVER opens from its expected edge: one that stands for the same edge keeps its
use. -/
def openWindow (half : Int) (ref : Int) (ws : List (Int × Bool)) : List (Int × Bool) :=
  let near (w : Int × Bool) : Bool := decide ((w.1 - ref).natAbs < half.toNat)
  if ws.any near then ws.map fun w => if near w then (ref, w.2) else w
  else ws.drop (ws.length - 1) ++ [(ref, false)]

/-- The expected edge of the tick that begins, 4 ns before its tick edge: at the length given to the tick that ends, or at the edge
that the loop has accepted for it while LOCKED (R76, R79, R83). An edge of a tick that has begun is none of the next one's. -/
def Chip.nextExpected (c : Chip) (first : Bool) : Int :=
  let s := c.sched
  let onTime : Int := if first then Int.ofNat (c.now * 1000) - 4000 else s.expected + Int.ofNat s.length
  match s.lastEdge with
  | some a =>
    if s.edgeNew && (first || (c.slaveState == Slave.locked && decide (2 * (a - onTime).natAbs < s.length))) then a else onTime
  | none => onTime

/-- The slaving loop at a tick edge (R79 to R83). -/
def Chip.slaveTick (c : Chip) (first : Bool) : Chip :=
  let s := c.sched
  let expected := c.nextExpected first
  let len := c.nextLength.toNat
  let windowed := c.slaveState == Slave.locked || c.slaveState == Slave.holdover
  let phase := if c.slaveState = Slave.acquire then s.phase - (Int.ofNat len - Int.ofNat s.period) else s.phase
  c.setSched fun s =>
    { s with
      expected := expected
      edgeNew := false
      idleTicks := s.idleTicks + 1
      length := len
      lockedLen := if c.slaveState = Slave.locked then len else s.lockedLen
      phase := phase
      windows := if windowed then openWindow (Int.ofNat (c.tickPs / 2)) expected s.windows else s.windows }

/-- TICK_PERIOD of the tick that ends, in cycles of 122.88 MHz timed from XCLK (R111): from its tick edge to the next. -/
def Chip.periodCycles (c : Chip) : Nat :=
  if c.bit F.TICK_STATUS.SLAVED then (rne ((c.nextExpected false - c.sched.expected) * 12288) 100000000).toNat
  else tickCycles c.rate

end Sys2Proof.Machine
end

