-- ==== Sys2Proof/Machine/Units.lean ====
section
/-!
DEFINITION. Machine/Units.lean: work units: when one starts, ends and overruns its window (R94 to R102, R111, R323, R349, R431,
R396, R398, R495).
-/
namespace Sys2Proof.Machine

/-! ### Start -/

/-- The unit's row gate is met (R96); the rows of frame N−1 have all been read. -/
def Chip.gateMet (c : Chip) (s : Slotted) : Bool :=
  s.e.rowGate == 0xFFFF || s.e.frameOfs == 1 || decide (s.e.rowGate < c.sched.rowsRead)

/-- The predecessor of an entry, and whether it ran in the tick before: a spill entry's predecessor that serves its frame
with FRAME_OFS 0 (R96). -/
def Chip.predecessor (c : Chip) (s : Slotted) : Option (Nat × Bool) :=
  if s.e.after = 0xFFFF then none
  else match (c.tableOf (c.wiring s.old)).entries[s.e.after]? with
    | none => none
    | some p =>
      if s.e.frameOfs = 1 ∧ p.frameOfs = 0 then some (s.e.after, true)
      else
        let id := if s.old then s.e.after + 8192 else s.e.after
        (c.planned id).map fun _ => (id, false)

/-- The predecessor has ended. Everything of the tick before has. -/
def Chip.afterMet (c : Chip) (s : Slotted) : Bool :=
  match c.predecessor s with
  | some (id, false) => c.sched.done.contains id
  | _ => true

/-- The predecessor's outputs are INCOMPLETE (R98). -/
def Chip.afterMarred (c : Chip) (s : Slotted) : Bool :=
  match c.predecessor s with
  | some (id, before) => (if before then c.sched.marredPrev else c.sched.marred).contains id
  | none => false

/-- The lane can take a unit: no unit runs on it, and its block is neither fenced nor in partial reset. -/
def Chip.laneFree (c : Chip) (lane : Nat) : Bool :=
  (c.laneRun lane).isNone && !c.laneDown lane && !(decide (lane < 6) && c.fenced lane)

/-- An entry's unit may start now (R96). -/
def Chip.mayStart (c : Chip) (s : Slotted) : Bool :=
  let slot := c.fld F.TICK_STATUS.SLOT
  c.dev.ticking && !c.sched.starting && decide (s.e.lane ≤ 8) && decide (s.e.start ≤ slot) && decide (slot < s.e.stop) &&
    !c.sched.done.contains s.id && c.laneFree (laneOfCode s.e.lane) && c.gateMet s && c.afterMet s

/-- The registers of a lane show the unit that starts. -/
def Chip.showStart (c : Chip) (lane : Nat) (s : Slotted) (exact : Bool) : Chip :=
  let id := s.id % 8192
  if lane < 6 then
    ((c.set (F.VALE_STATUS.ENTRY.vale lane) id).setBit (F.VALE_STATUS.EXACT.vale lane) exact).setBit
      (F.VALE_STATUS.BUSY.vale lane) true
  else if lane = 6 then ((c.set F.SAD_STATUS.ENTRY id).setBit F.SAD_STATUS.CONTROL (s.e.cls == 0)).setBit F.SAD_STATUS.BUSY true
  else (c.set (F.MOV_STATUS.ENTRY.mov (lane - 7)) id).setBit (F.MOV_STATUS.BUSY.mov (lane - 7)) true

/-- A Vale's unit starts: its budget counts in the interval, and an EXACT unit waits for the safe voltage (R383, R398). -/
def Chip.startOnVale (c : Chip) (n : Nat) (u : UnitRun) : Chip :=
  let x := c.island n
  let c := c.setIsland n { x with started := true, budget := x.budget + c.unitBudget n u }
  if u.exact then
    if c.atSafe n then (if (c.island n).goal < c.safeMv n then c.holdForExact n else c)
    else ((c.holdForExact n).raise (F.APX_EVENTS.HOLD.vale n)).setRun n { u with waiting := true }
  else c

/-- A unit takes its lane. -/
def Chip.takeLane (c : Chip) (lane : Nat) (u : UnitRun) : Chip :=
  { c with sched := { c.sched with lanes := c.sched.lanes ++ [(lane, u)] } }

/-- A unit starts. -/
def Chip.startUnit (c : Chip) (s : Slotted) (r : UnitRec) : Chip :=
  let lane := laneOfCode s.e.lane
  let exact := c.unitExact false r s.e
  let marred := c.afterMarred s
  let u : UnitRun :=
    { entry := s.id, unit := s.e.unitId, ofs := s.e.frameOfs, old := s.old, pass := 0, exact := exact,
      began := c.now, waiting := false, replayed := 0, replay := Replay.none, tainted := marred, poisoned := false, counts := [], masks := [], told := 0 }
  let c := c.takeLane lane u
  let frame := c.runFrame s.e.frameOfs
  let c := c.metaUpd frame fun m => { m with served := true, exactBroken := m.exactBroken || !exact }
  let c := if marred then c.markNetwork frame r.network 1 else c
  let c := c.showStart lane s exact
  if lane < 6 then c.startOnVale lane u else c

/-- UNIT_START: an entry's start slot, predecessor and row gate allow its unit to start. -/
def Chip.unitStart (c : Chip) (id : Nat) : Chip :=
  match c.planned id with
  | none => c
  | some s =>
    match c.planUnit s with
    | none => c
    | some r => if c.mayStart s then c.startUnit s r else c

/-- UNIT_START. -/
def execUnitStart (entry : Nat) (s : State) : Host.Outcome State Fault Refusal :=
  act (.unitStart entry) (fun _ c => c.unitStart entry) s

/-! ### End -/

/-- The registers of a lane show the unit that ended. -/
def Chip.showEnd (c : Chip) (lane : Nat) (u : UnitRun) (cycles : Nat) : Chip :=
  let id := u.entry % 8192
  let top := min 0xFFFFFFFF cycles
  if lane < 6 then
    let c := (c.set (F.VALE_LAST_UNIT.ENTRY.vale lane) id).set (F.VALE_LAST_UNIT.UNIT_ID.vale lane) u.unit
    (c.set (F.VALE_CYCLES.CYCLES.vale lane) top).set (F.VALE_CYCLES_PEAK.CYCLES.vale lane)
      (max top (c.fld (F.VALE_CYCLES_PEAK.CYCLES.vale lane)))
  else if lane = 6 then
    let c := (c.set F.SAD_LAST_UNIT.ENTRY id).set F.SAD_LAST_UNIT.UNIT_ID u.unit
    (c.set F.SAD_CYCLES.CYCLES top).set F.SAD_CYCLES_PEAK.CYCLES (max top (c.fld F.SAD_CYCLES_PEAK.CYCLES))
  else
    let m := lane - 7
    ((c.set (F.MOV_LAST_UNIT.ENTRY.mov m) id).set (F.MOV_LAST_UNIT.UNIT_ID.mov m) u.unit).set (F.MOV_CYCLES.COUNT.mov m) top

/-- A spill entry ends in the slot in progress (R111). -/
def Chip.noteSpill (c : Chip) (ofs : Nat) : Chip :=
  if ofs = 1 then { c with sched := { c.sched with spillEnd := c.fld F.TICK_STATUS.SLOT + 1 } } else c

/-- The LOOP block takes the outputs of a Control unit that has ended or been stopped (R102, R495). -/
def Chip.controlEnd (c : Chip) (s : Slotted) (incomplete : Bool) : Chip :=
  let im := c.wiring s.old
  let edge := if s.e.frameOfs = 1 then c.sched.edgePrev else c.sched.edgeNow
  c.loopCollect im s.e.unitId (c.runFrame s.e.frameOfs) (laneOfCode s.e.lane) edge (im.readout.rowEndVco s.e.rowGate) incomplete

/-- Everything that a unit issued has been acknowledged: its passes are done, and no push waits (R471). -/
def Chip.unitSettled (c : Chip) (lane : Nat) (u : UnitRun) (r : UnitRec) : Bool :=
  u.pass == r.passCount && u.counts.length == r.passCount && !u.waiting && !(c.fabric.stalled.any fun p => p.lane == lane)

/-- The unit on a lane has ended. -/
def Chip.endUnit (c : Chip) (lane : Nat) (u : UnitRun) (r : UnitRec) (cycles : Nat) : Chip :=
  let c := c.showEnd lane u cycles
  let c := if u.tainted then c.markNetwork (c.runFrame u.ofs) r.network 1 else c
  let c := ((c.entryDone u.entry u.tainted).noteSpill u.ofs).clearLane lane
  match c.planned u.entry with
  | some s =>
    if lane = 6 ∧ s.e.cls = 0 then
      let ticks := min 0xFFFFFF ((c.now - c.sched.edgeNow) * 12288 / 100000)
      ((c.set F.SAD_CTRL_END.TICKS ticks).set F.SAD_CTRL_FRAME.FRAME (c.runFrame u.ofs)).controlEnd s u.tainted
    else c
  | none => c

/-- UNIT_END: the unit on a lane ends, after `cycles` of the lane's clock (R471). -/
def Chip.unitEnd (c : Chip) (lane cycles : Nat) : Chip :=
  let d := c.finishPass lane
  match d.laneRun lane with
  | none => c
  | some u =>
    match (d.wiring u.old).unit (laneCode lane) u.unit with
    | none => c
    | some r => if d.unitSettled lane u r then d.endUnit lane u r cycles else c

/-- UNIT_END. -/
def execUnitEnd (lane cycles : Nat) (s : State) : Host.Outcome State Fault Refusal :=
  act (.unitEnd lane cycles) (fun _ c => c.unitEnd lane cycles) s

/-! ### Overrun -/

/-- An entry's window ends before its unit: the unit is stopped, or never started (R98, R488). -/
def Chip.overrunEntry (c : Chip) (s : Slotted) : Chip :=
  let lane := laneOfCode s.e.lane
  let c := ((c.count F.OVERRUN_LOG.COUNT 1).set F.OVERRUN_LOG.ENTRY (s.id % 8192)).alert Code.TICK_OVERRUN (s.id % 8192) 0
  let control := lane == 6 && s.e.cls == 0 && !c.sched.drain
  if (c.laneRun lane).any fun u : UnitRun => u.entry == s.id then
    let c := (c.stopUnit lane).noteSpill s.e.frameOfs
    if control then c.controlEnd s true else c
  else
    let c := c.notRun s 1
    if control then c.count F.CTRL_COUNTS.NOT_APPLIED 1 else c

/-- WINDOW_OVERRUN: in the last slot of its window an entry's unit has not ended. -/
def Chip.windowOverrun (c : Chip) (id : Nat) : Chip :=
  match c.planned id with
  | none => c
  | some s =>
    if c.dev.ticking && !c.sched.starting && decide (s.e.lane ≤ 8) && !c.sched.done.contains id &&
        decide (s.e.stop ≤ c.fld F.TICK_STATUS.SLOT + 1) then c.overrunEntry s
    else c

/-- WINDOW_OVERRUN. -/
def execWindowOverrun (entry : Nat) (s : State) : Host.Outcome State Fault Refusal :=
  act (.windowOverrun entry) (fun _ c => c.windowOverrun entry) s

end Sys2Proof.Machine
end

