-- ==== Sys2Proof/Machine/TickEdge.lean ====
section
/-!
DEFINITION. Machine/TickEdge.lean: the tick edge and its hot swap (R68 to R73, R111, R145, R146, R192, R206, R621, R624 to R626,
R630 to R632), slots (R85, R92, R101) and the end of an orderly stop (R146, R148).
-/
namespace Sys2Proof.Machine

/-! ### The end of a tick -/

/-- The counts that show the last completed tick; those of a fenced Vale stay (R617). -/
def Chip.tickCounts (c : Chip) : List Fld :=
  [F.MOV_BYTES.COUNT.mov 0, F.MOV_BYTES.COUNT.mov 1, F.SAD_SAT_COUNT.COUNT, F.PASS_CTRL_FLITS.VALUE, F.PLAIN_RD_LINES.LINES,
   F.PLAIN_WR_LINES.LINES, F.Q_OPS.COUNT] ++
  ((List.range 6).filter fun n => !c.fenced n).flatMap fun n =>
    [F.APX_SKIP_PAIRS.COUNT.vale n, F.APX_SKIP_CHUNKS.COUNT.vale n, F.VALE_SAT_COUNT.COUNT.vale n]

/-- PLAIN_LAT_PEAK and PASS_CTRL_PEAK of the tick that ends: free values within the bounds of R413 and R485. -/
def Chip.showPeaks (c : Chip) : Chip :=
  let (n, c) := c.draw
  let lat := if c.fld F.PLAIN_RD_LINES.LINES = 0 then 0 else 95 + (Config.plainLatency n).toNat % 216
  let flit := if c.fld F.PASS_CTRL_FLITS.VALUE = 0 then 0 else 4 + (Config.controlLatency n).toNat % 189
  (c.set F.PLAIN_LAT_PEAK.NS lat).set F.PASS_CTRL_PEAK.VALUE flit

/-- Entries whose windows end with the tick, or with slot S of a drain tick, and whose units have not ended (R98). -/
def Chip.cutLeft (c : Chip) : Chip :=
  (c.plan.filter fun s => s.e.lane != 9 && !c.sched.done.contains s.id).foldl Chip.overrunEntry c

/-- A tick ends: units still in progress are stopped, and the registers show it. -/
def Chip.closeTick (c : Chip) : Chip :=
  let c := c.cutLeft
  let c := (c.set F.SCHED_STATUS.SPILL_USED c.sched.spillEnd).set F.TICK_PERIOD.PERIOD c.periodCycles
  let c := (c.showTallies (errorCounts ++ c.tickCounts)).showPeaks
  let c := c.set F.THR_STATUS.SHED (min 0xFFFF c.supply.shed)
  let c := c.setLoader fun x => { x with old := none, released := false }
  { c with layersOld := []
           sched := { c.sched with spillEnd := 0, marredPrev := c.sched.marred, edgePrev := c.sched.edgeNow, swapTick := false } }

/-- The first tick edge in RUN ends no tick: the interval of the error counts ends, and the other counts begin. -/
def Chip.closeInterval (c : Chip) : Chip :=
  let c := c.showTallies errorCounts
  { c with tally := [], supply := { c.supply with shed := 0 } }

/-- The tick, or the interval, that a tick edge ends. -/
def Chip.endPeriod (c : Chip) : Chip := if c.sched.starting then c.closeInterval else c.closeTick

/-! ### HOLD (R148) -/

/-- Entry into HOLD from RUN or DEGRADED. A pending recovery produces no record (R625). -/
def Chip.holdEntry (c : Chip) : Chip :=
  let c := ((c.endOperation.set F.DEV_STATE.HOLD_REASON 7).vcmRamp 3).csiDown
  let c := c.setLoader fun x => { x with old := none, released := false }
  let c := { c with
    sched := { c.sched with swapTick := false, edgeHalf := false }
    layersOld := []
    loop := { c.loop with waiting := [] }
    egress := { c.egress with metas := [], recovery := [] } }
  (c.drawChallenge.nextStamp).enter .hold

/-! ### The table in force (R621) -/

/-- Vales fenced in the TICK cycle of the edge now taken: those fences count as after it (R618, log entry 100). -/
def Chip.fencedLate (c : Chip) : List Nat := if c.sched.fencedAt = c.now then c.sched.fencedLast else []

/-- Vales that count as fenced at this edge, in the order of their fences. -/
def Chip.fencedBefore (c : Chip) : List Nat := c.sched.fenceOrder.filter fun n => !c.fencedLate.contains n

/-- The tick sequencer chooses the table. -/
def Chip.chooseTable (c : Chip) : Chip := { c with sched := { c.sched with tableVale := c.fencedBefore.head? } }

/-- The Vale whose fallback table is in force. -/
def Chip.fallbackVale (c : Chip) : Option Nat :=
  match c.sched.tableVale with
  | some n => if (c.image.fallback n).isSome then some n else none
  | none => none

/-- TICK_STATUS and SCHED_STATUS report the table in force. -/
def Chip.showTable (c : Chip) : Chip :=
  let v := c.fallbackVale
  ((c.setBit F.TICK_STATUS.FALLBACK v.isSome).set F.TICK_STATUS.FALLBACK_VALE (v.getD 7)).set F.SCHED_STATUS.ENTRIES c.table.count

/-- A fallback table in force fences the Vales whose clocks it stops; such a Vale keeps ACT_MHZ 0 (R320, R617). -/
def Chip.clockFences (c : Chip) : Chip :=
  if c.fallbackVale.isSome then
    let d := (List.range 6).foldl (fun c n =>
      if c.table.mhz n = 0 ∧ c.fenced n = false then (c.fence n 4).set (F.VALE_CLK.ACT_MHZ.vale n) 0 else c) c
    { d with sched := { d.sched with fencedLast := c.sched.fencedLast, fencedAt := c.sched.fencedAt } }
  else c

/-- Recovery events find their recovery point at this edge, and share one record (R625, R626); those of the edge's own TICK cycle find
it at the next (R618). -/
def Chip.recoveryPoint (c : Chip) : Chip :=
  let at_ := (c.fld F.TICK_FRAME.FRAME, c.fallbackVale.getD 0xFF, c.fld F.VALE_MASK.RUNNING)
  let rs := c.egress.recovery
  let due := rs.filter fun r : Recovery => r.point.isNone && r.time != c.now
  let shared : List Recovery := match due with
    | [] => []
    | r :: more => [{ more.foldl Recovery.join r with point := some at_ }]
  { c with egress := { c.egress with
      recovery := (rs.filter fun r : Recovery => r.point.isSome) ++ shared ++
        rs.filter fun r : Recovery => r.point.isNone && r.time == c.now } }

/-! ### The frame that begins -/

/-- TICK_FRAME and the wraps of a tick edge (R72); a drain tick keeps the number (R146). -/
def Chip.nextFrame (c : Chip) (first drain : Bool) : Chip :=
  if first then c.set F.TICK_FRAME.FRAME 0
  else if drain then c
  else
    let c := c.countWrap F.TICK_FRAME.FRAME 1
    if c.fld F.TICK_FRAME.FRAME = 0 then { c with egress := { c.egress with wraps := c.egress.wraps + 1 } } else c

/-- The metadata of the frame that begins (R84, R192, R218, R569); those of frames before the last are done with. -/
def Chip.openMeta (c : Chip) (first : Bool) : Chip :=
  let frame := c.fld F.TICK_FRAME.FRAME
  let last := c.runFrame 1
  let flag (b : Bool) (n : Nat) : Nat := if b then n else 0
  let m : FrameMeta :=
    { frame := frame, wraps := c.egress.wraps, wrapped := frame == 0 && !first, epoch := c.fld F.TIME_STATUS.EPOCH,
      slave := c.slaveState, image := c.image.imageId, expL := c.word A.EXP_FORCE_L, expS := c.word A.EXP_FORCE_S,
      trigCount := c.fld F.TRIG_COUNT.COUNT, stamp := 0,
      trigStamp := (c.word A.TRIG_STAMP_LO).toNat + (c.word A.TRIG_STAMP_HI).toNat * 0x100000000, black := [], modes := [],
      vcm := patternOf 16 c.loop.vcm.code, ctrlLat := 0, privTick := c.bit F.PRIV_STATUS.EFFECTIVE,
      flags := flag (c.bit F.PIX_STATUS.EXPOSED) 1 + flag c.pixel.strobeNone 32 + flag (c.bit F.PIX_STATUS.DARK_STALE) 2048 +
        flag (c.bit F.TICK_STATUS.FALLBACK) 4096 + flag (c.dev == .degraded) 8192,
      counts := [], marks := [], exactBroken := false, served := false, page := none, headLine := [], records := [],
      sealRecord := [] }
  let keep := c.egress.metas.filter fun x : FrameMeta => !first && x.frame == last
  { c with egress := { c.egress with metas := keep ++ [m] }
           loop := { c.loop with reports := c.loop.reports.filter fun r : Nat × List Byte => !first && r.1 == last } }

/-! ### Entries that do not run (R621, R623, R631) -/

/-- An entry on the lane of a fenced Vale: UNSERVED, or INCOMPLETE as part of the tick of the fence (R618). -/
def Chip.unserved (c : Chip) (s : Slotted) : Chip :=
  if decide (1 ≤ s.e.lane) && decide (s.e.lane ≤ 6) && c.fencedLate.contains (s.e.lane - 1) then
    if c.sched.done.contains s.id then c
    else (c.notRun s 1).recoverCount fun r => { r with stopped := r.stopped + 1 }
  else if decide (1 ≤ s.e.lane) && decide (s.e.lane ≤ 6) && c.fenced (s.e.lane - 1) then
    let c := c.markPlanned s 2
    let c := if c.sched.done.contains s.id then c else c.entryDone s.id false
    c.alertOnce Code.UNSERVED (s.e.lane - 1) 0
  else c

/-- An entry that the throttle sheds. -/
def Chip.shedEntry (c : Chip) (s : Slotted) : Chip :=
  if c.isShed s && !c.sched.done.contains s.id then
    let c := c.notRun s 1
    { c with supply := { c.supply with shed := c.supply.shed + 1 } }
  else c

/-- An entry on the lane of a Mover that is in partial reset and does not return at this edge. -/
def Chip.downEntry (c : Chip) (s : Slotted) : Chip :=
  if (s.e.lane == 7 || s.e.lane == 8) && c.moverDown (s.e.lane - 7) && !c.moverDue (s.e.lane - 7) &&
      !c.sched.done.contains s.id then c.notRun s 1
  else c

/-- The entries of the tick that begins which will not run. -/
def Chip.cutEntries (c : Chip) : Chip :=
  let c := { c with supply := { c.supply with shed := 0 } }
  let c := c.plan.foldl Chip.unserved c
  let c := c.plan.foldl Chip.shedEntry c
  c.plan.foldl Chip.downEntry c

/-! ### The edge -/

/-- The sequencer's own state at an edge. -/
def Chip.startTick (c : Chip) (drain : Bool) : Chip :=
  let fenced := c.fencedBefore.foldl (fun b n => b ||| 2 ^ n) 0
  let c := c.set F.TICK_STATUS.SLOT 0
  { c with sched := { c.sched with
      starting := false, drain := drain, done := [], marred := [], rowsRead := 0, fencedEdge := fenced, fsyncOut := false,
      edgeNow := c.now, edgeHalf := false } }

/-- The owner of the driver in force (R503, R516). -/
def Chip.ownerEdge (c : Chip) : Chip :=
  let loop := c.liveBit F.LOOP_CTRL.VCM_OWNER
  if loop = c.bit F.LOOP_STATUS.VCM_OWNER then c
  else
    let c := c.setBit F.LOOP_STATUS.VCM_OWNER loop
    (c.setVcm c.loop.vcm).vcmConvert

/-- A fresh temperature at or above a T_CRIT that comes into force (R632). -/
def Chip.criticalEdge (c : Chip) : Chip :=
  let fresh (t : Nat × Nat) : Bool := c.survey.ages.any fun a : Nat × Nat => a.1 == t.1 && decide (a.2 ≤ 8)
  match (List.range 8).find? fun i => c.survey.temps.any fun t : Nat × Nat => t.1 == 8 + i && fresh t && c.overCritical t.2 with
  | some i => c.fatal Code.THERMAL_CRITICAL (8 + i) 0
  | none => c

/-- RUN or DEGRADED (R145); a fence of the edge's own TICK cycle comes after it (R618). -/
def Chip.degradeEdge (c : Chip) : Chip :=
  let bits := c.fld F.DEV_STATE.DEGRADE
  c.enter (if (if c.fencedBefore.isEmpty then bits / 2 else bits) = 0 then .run else .degraded)

/-- A tick begins, its table chosen and its image in force. -/
def Chip.openTick (c : Chip) (first drain : Bool) : Chip :=
  let before := c.live F.PIX_CTRL.TRIG_MODE
  let c := ((c.nextStamp.startTick drain).nextFrame first drain).showTable
  let c := if drain then c else c.recoveryPoint
  let c := c.clockFences
  let c := (c.latch tickAddrs).ownerEdge
  let c := ((c.throttleEdge.supplyEdge).islandsEdge first c.table).expertsEdge
  let c := ((c.pixelEdge before first (!drain)).terraceEdge).degradeEdge
  let c := { c with mem := c.mem.clearTickPushes }.slaveTick first
  let c := if drain then c else (c.frontEdge (c.fld F.TICK_FRAME.FRAME)).openMeta first
  c.cutEntries.criticalEdge

/-- TICK_EDGE: the tick in progress ends and the next begins, with VDDL as measured at the edge. A stop ends at this edge when
no spill work is left to do (R146), or when no tick has begun yet. -/
def Chip.tickEdge (c : Chip) (fz : Fuses) (vddlMv : Nat) : Chip :=
  if !c.dev.ticking || c.sched.drain then c
  else
    let c := c.setRail 3 { c.rail 3 with mv := vddlMv }
    let first := c.sched.starting
    let c := if c.sched.edgeHalf then c
      else
        let c := c.endPeriod.chooseTable
        if c.swapDue then c.swap fz else c
    if c.bit F.DEV_STATE.STOPPING then
      if first ∨ c.table.spill = 0 then c.holdEntry else c.openTick false true
    else c.openTick first false

/-- TICK_EDGE. -/
def execTickEdge (vddlMv : Nat) (s : State) : Host.Outcome State Fault Refusal :=
  act (.tickEdge vddlMv) (fun fz c => c.tickEdge fz vddlMv) s

/-- HOT_SWAP: at the tick edge that begins the swap tick, ahead of the rest of that edge; TICK_EDGE makes the swap too when it
comes first, and this then has nothing left to do. -/
def Chip.hotSwap (c : Chip) (fz : Fuses) : Chip :=
  if c.swapDue && !c.sched.edgeHalf && !c.sched.drain then
    let c := (c.endPeriod.chooseTable).swap fz
    { c with sched := { c.sched with edgeHalf := true } }
  else c

/-- HOT_SWAP. -/
def execHotSwap (s : State) : Host.Outcome State Fault Refusal := act .hotSwap (fun fz c => c.hotSwap fz) s

/-! ### Slots -/

/-- A PUBLISH entry at its slot (R101); it ends with its slot.  It is no unit, so SPILL_USED does not follow it. -/
def Chip.publishEntry (c : Chip) (s : Slotted) : Chip :=
  (c.publish (c.wiring s.old) (c.runFrame s.e.frameOfs)).entryDone s.id false

/-- The PUBLISH entries that a slot starts. -/
def Chip.publishSlot (c : Chip) (slot : Nat) : Chip :=
  (c.plan.filter fun s => s.e.lane == 9 && s.e.start == slot && !c.sched.done.contains s.id).foldl Chip.publishEntry c

/-- FSYNC_OUT rises at its slot (R85). -/
def Chip.fsyncOutRise (c : Chip) (slot : Nat) : Chip :=
  if c.live F.TICK_CTRL.FSO_OFFSET = slot ∧ c.live F.TICK_CTRL.FSO_WIDTH ≠ 0 ∧ c.sched.drain = false then
    { c with sched := { c.sched with fsyncOut := true } }
  else c

/-- The regions of the image just replaced are released at slot S of the swap tick (R192). -/
def Chip.releaseOld (c : Chip) (slot : Nat) : Chip :=
  if c.sched.swapTick && decide (c.table.spill ≤ slot) then c.setLoader fun x => { x with released := true } else c

/-- SLOT_START: a slot of the tick in progress begins. -/
def Chip.slotStart (c : Chip) (slot : Nat) : Chip :=
  if c.dev.ticking && !c.sched.starting && decide (c.fld F.TICK_STATUS.SLOT ≤ slot) then
    let c := c.set F.TICK_STATUS.SLOT slot
    (((c.releaseOld slot).publishSlot slot).srvSlot slot |>.trigDecide slot).fsyncOutRise slot
  else c

/-- SLOT_START. -/
def execSlotStart (slot : Nat) (s : State) : Host.Outcome State Fault Refusal :=
  act (.slotStart slot) (fun _ c => c.slotStart slot) s

/-- FSYNC_OUT_END: the pulse width has passed. -/
def Chip.fsyncOutEnd (c : Chip) : Chip := { c with sched := { c.sched with fsyncOut := false } }

/-- FSYNC_OUT_END. -/
def execFsyncOutEnd (s : State) : Host.Outcome State Fault Refusal := act .fsyncOutEnd (fun _ c => c.fsyncOutEnd) s

/-- DRAIN_END: slot S of the drain tick is reached (R146). -/
def Chip.drainEnd (c : Chip) : Chip := if c.dev.ticking && c.sched.drain then c.cutLeft.holdEntry else c

/-- DRAIN_END. -/
def execDrainEnd (s : State) : Host.Outcome State Fault Refusal := act .drainEnd (fun _ c => c.drainEnd) s

end Sys2Proof.Machine
end

