-- ==== Sys2Proof/Machine/Startup.lean ====
section
/-!
DEFINITION. Machine/Startup.lean: power, resets and the always-on island (R25, R115 to R126), the start-up states (R127 to R140,
R75, R88, R91) and the commands of DEV_CTRL (R119, R135, R143, R146, R147, R149, R157, R158).
-/
namespace Sys2Proof.Machine

/-! ### RESET_HOLD and OFF -/

/-- A reset takes the device to RESET_HOLD (R50, R51, R115, R120): everything in progress is abandoned, but for the fuse pulse in
progress (R599) and the ramp of the bridge. The registers take their reset values at the exit. -/
def Chip.enterReset (c : Chip) (cause : Nat) : Chip :=
  let cause := cause ||| (if c.dev = .faultStop then 8 else 0)
  let c := (((c.endOperation.vcmRamp 2).csiDown).dropLoad).scrubEnd 2
  let c := { c with aon := { c.aon with causes := c.aon.causes ||| cause }
                    survey := { c.survey with scan := none, busy := false }
                    host := { c.host with txn := none, stretch := none, writes := [], fetchX := none, fetchI := none } }
  c.enter .resetHold

/-- VDDA_LOSS: the device is off, and with the island its latch and its causes are gone (R115, R120, R126). -/
def Chip.vddaLoss (c : Chip) : Chip :=
  if c.dev = .off then c
  else { c.enterReset 0 with dev := .off, aon := { otpLatch := false, powerGood := false, causes := 0 } }

/-- VDDA_LOSS. -/
def execVddaLoss (s : State) : Host.Outcome State Fault Refusal := act .vddaLoss (fun _ c => c.vddaLoss) s

/-- AON_START: the always-on island starts, and everything volatile takes its first value (R25, R115, R126). -/
def Chip.aonStart (c : Chip) : Chip :=
  if c.dev = .off then
    { Chip.started c.mosaic with
      draws := c.draws
      supply := { Supply.fresh with rails := c.supply.rails.map fun r : Rail => Rail.nominal r.mv }
      loop := { vcm := c.loop.vcm, waiting := [], reports := [] } }
  else c

/-- AON_START. -/
def execAonStart (s : State) : Host.Outcome State Fault Refusal := act .aonStart (fun _ c => c.aonStart) s

/-- POWER_GOOD (R122); ignored while the OTP latch is set (R129). -/
def Chip.powerIsGood (c : Chip) : Chip :=
  if c.dev = .off ∨ c.aon.otpLatch = true then c else { c with aon := { c.aon with powerGood := true } }

/-- POWER_GOOD. -/
def execPowerGood (s : State) : Host.Outcome State Fault Refusal := act .powerGood (fun _ c => c.powerIsGood) s

/-- A reset event: in RESET_HOLD there is nothing to leave, and in OFF no island to take it (R115). -/
def Chip.resetTo (c : Chip) (cause : Nat) : Chip := if c.dev = .off ∨ c.dev = .resetHold then c else c.enterReset cause

/-- NRESET_LOW: a low level of `widthNs`. Between 100 ns and 500 ns whether it acts is free (R118). -/
def Chip.nresetLow (c : Chip) (widthNs : Nat) : Chip :=
  if widthNs < 100 then c
  else if widthNs < 500 then
    let (n, c) := c.draw
    if Config.shortReset n then c.resetTo 2 else c
  else c.resetTo 2

/-- NRESET_LOW. -/
def execNresetLow (widthNs : Nat) (s : State) : Host.Outcome State Fault Refusal :=
  act (.nresetLow widthNs) (fun _ c => c.nresetLow widthNs) s

/-- RAIL_FALL: after power-good, required rail `r` (VDDPIX, VDDA, VDDIO, VDDL, VDDM) lies below its fall threshold (R124). -/
def Chip.railFall (c : Chip) (r : Nat) : Chip :=
  if c.dev = .off ∨ c.aon.powerGood = false ∨ 4 < r then c
  else
    let c := c.resetTo (2 ^ (4 + r))
    { c with aon := { c.aon with powerGood := false, causes := c.aon.causes ||| 2 ^ (4 + r) } }

/-- RAIL_FALL. -/
def execRailFall (rail : Nat) (s : State) : Host.Outcome State Fault Refusal :=
  act (.railFall rail) (fun _ c => c.railFall rail) s

/-- EXIT_RESET_HOLD: straps are sampled and SENSE begins (R54, R125); the driver's registers show a ramp that still runs. -/
def Chip.exitResetHold (c : Chip) (straps : Nat) : Chip :=
  if c.dev = .resetHold ∧ c.aon.powerGood = true ∧ c.aon.otpLatch = false then (c.leaveReset straps).showVcm else c

/-- EXIT_RESET_HOLD. -/
def execExitResetHold (straps : Nat) (s : State) : Host.Outcome State Fault Refusal :=
  act (.exitResetHold straps) (fun _ c => c.exitResetHold straps) s

/-! ### SENSE (R127 to R130) -/

/-- XCLK_ID of a count over 32 AON periods (R74). -/
def xclkId (count : Nat) : Nat :=
  if count < 16900 then 3 else if count < 21000 then 0 else if count < 24830 then 1 else if count < 29000 then 2 else 3

/-- XCLK_COUNT: a valid count is the last (R75). -/
def Chip.xclkCount (c : Chip) (count : Nat) : Chip :=
  if c.dev = .sense ∧ c.startup.xclkValid = false then
    { c.set F.CLK_STATUS.XCLK_ID (xclkId count) with startup := { c.startup with xclkValid := xclkId count != 3 } }
  else c

/-- XCLK_COUNT. -/
def execXclkCount (count : Nat) (s : State) : Host.Outcome State Fault Refusal :=
  act (.xclkCount count) (fun _ c => c.xclkCount count) s

/-- The ROM patch entries are written into the overlay (R588). -/
def Chip.patchRom (c : Chip) : Chip :=
  let words := (romPatches c.otp.sensed).foldl (fun m e => Sparse.set (fun _ => 0) m e.1 e.2) c.startup.overlay
  { c with startup := { c.startup with overlay := words } }

/-- LIFECYCLE shows the state that the fuses give (R153). -/
def Chip.senseLifecycle (c : Chip) : Chip :=
  let r := c.otp.sensed
  let c := (c.set F.LIFECYCLE.STATE (lifecycleCode r)).set F.LIFECYCLE.PENDING (lifecycleCode r)
  c.setBit F.LIFECYCLE.MINORITY ((List.range 5).any fun i => minorityCopies r (bodyCopies 0 2 i))

/-- OTP_SENSE_DONE: the fuses are read. An array that fails the integrity check sets the latch and sends the device to
RESET_HOLD (R127, R129, R583); else the session opens (R571, log entry 41). -/
def Chip.otpSenseDone (c : Chip) (fz : Fuses) : Chip :=
  if c.dev = .sense ∧ c.startup.xclkValid = true ∧ c.startup.otpChecked = false then
    let c := { c with otp := { c.otp with sensed := fz.burned, lastRead := fz.burned, lensRead := fz.burned, loadRead := fz.burned } }
    if otpIntact fz.burned then
      let c := c.patchRom.senseLifecycle
      { c with startup := { c.startup with otpChecked := true } }.openSession
    else { c.enterReset 0 with aon := { (c.enterReset 0).aon with otpLatch := true } }
  else c

/-- OTP_SENSE_DONE. -/
def execOtpSenseDone (s : State) : Host.Outcome State Fault Refusal := act .otpSenseDone (fun fz c => c.otpSenseDone fz) s

/-- The three PLLs of SENSE are stopped and restarted; SEC waits for PLL_F again (R130). -/
def Chip.restartPlls (c : Chip) : Chip := { c with startup := { c.startup with secOnPllF := false } }

/-- PLL_LOCK_TIMEOUT. -/
def Chip.pllLockTimeout (c : Chip) : Chip := if c.dev = .sense ∧ c.startup.xclkValid = true then c.restartPlls else c

/-- PLL_LOCK_TIMEOUT. -/
def execPllLockTimeout (s : State) : Host.Outcome State Fault Refusal := act .pllLockTimeout (fun _ c => c.pllLockTimeout) s

/-- SEC_CHANGEOVER: SEC runs from PLL_F (R88). -/
def Chip.secChangeover (c : Chip) : Chip :=
  if c.dev = .sense ∧ c.startup.xclkValid = true then { c with startup := { c.startup with secOnPllF := true } } else c

/-- SEC_CHANGEOVER. -/
def execSecChangeover (s : State) : Host.Outcome State Fault Refusal := act .secChangeover (fun _ c => c.secChangeover) s

/-- SENSE_END: the three PLLs have locked; FILL zeroes the SRAMs, and the minority bits that SENSE counted are recorded
(R115, R131, R584). -/
def Chip.senseEnd (c : Chip) : Chip :=
  if c.dev = .sense ∧ c.startup.xclkValid = true ∧ c.startup.otpChecked = true ∧ c.startup.secOnPllF = true then
    let c := ((c.raise F.CLK_STATUS.PLL_T_LOCK).raise F.CLK_STATUS.PLL_F_LOCK).raise F.CLK_STATUS.PLL_M_LOCK
    let c := ({ c with mem := Mem.fresh }.patchRom).enter .fill
    if (List.range 16).any fun g => minorityBits c.otp.sensed g != 0 then
      (c.raise F.OTP_EVENTS.MINORITY).alert Code.OTP_MINORITY noUnit 0
    else c
  else c

/-- SENSE_END. -/
def execSenseEnd (s : State) : Host.Outcome State Fault Refusal := act .senseEnd (fun _ c => c.senseEnd) s

/-! ### FILL and SELFTEST (R131 to R134) -/

/-- The lock bit of PLL_V`n`. -/
def vLock (n : Nat) : Fld := { F.CLK_STATUS.PLL_V_LOCK with lo := 4 + n, w := 1 }

/-- PLL_V`n` is out of lock (R91). -/
def Chip.valeUnlocked (c : Chip) (n : Nat) : Chip := ((c.set (vLock n) 0).alert Code.PLL_UNLOCK noUnit 0).fence n 2

/-- PLL_V`n` never locked: its Vale is fenced with its voltages at 0 (R132, R665). -/
def Chip.valeNeverLocked (c : Chip) (n : Nat) : Chip := (c.valeUnlocked n).put (A.VALE_VOLT + 0x1000 * n) 0

/-- For SELFTEST every island stands at the voltage that VDDL gives it (R39, R133): its ceiling, wherever VDDL goes. -/
def Chip.islandsAtCeiling (c : Chip) : Chip :=
  (List.range 6).foldl (fun c n =>
    c.setIsland n { c.island n with startMv := c.vddl - 30, since := c.now, goal := 1000 }) c

/-- FILL_COMPLETE: the read-back has ended, and the PLLs have locked or run out of time. The lock bits of PLL_S and the PLL_V show
from this command on (log entry 15). -/
def Chip.fillComplete (c : Chip) (o : FillOutcome) : Chip :=
  if c.dev = .fill then
    let c := (c.setBit F.CLK_STATUS.PLL_S_LOCK o.lockedS).set F.CLK_STATUS.PLL_V_LOCK (o.locked % 64)
    if o.checkError then (c.raise F.BIST_STATUS.BASIN_FAIL).fatal Code.BIST_BASIN noUnit 0
    else if !o.lockedS then c.fatal Code.PLL_UNLOCK noUnit 0
    else
      let c := (List.range 6).foldl (fun c n => if o.locked.testBit n then c else c.valeNeverLocked n) c
      c.islandsAtCeiling.enter .selftest
  else c

/-- FILL_COMPLETE. -/
def execFillComplete (o : FillOutcome) (s : State) : Host.Outcome State Fault Refusal :=
  act (.fillComplete o) (fun _ c => c.fillComplete o) s

/-- The islands have their safe-voltage points (R645). -/
def Chip.selftestPoints (c : Chip) (points : List (List Nat)) : Chip :=
  (List.range 6).foldl (fun c n => c.setIsland n { c.island n with points := points.getD n Island.fresh.points }) c

/-- From the end of SELFTEST to the entry to RUN an unfenced island goes to the safe voltage of its clock, 600 MHz, where the spec
names no level (log entry 102). -/
def Chip.selftestIslands (c : Chip) : Chip :=
  (List.range 6).foldl (fun c n => if c.fenced n then c else c.steer n (c.safeMv n)) c

/-- The Vales that fail are fenced (R133). -/
def Chip.selftestVales (c : Chip) (fails : Nat) : Chip :=
  (List.range 6).foldl (fun c n => if fails.testBit n then (c.alert Code.BIST_VALE n 0).fence n 1 else c) c

/-- Groups with `k` or more slices retired. -/
def Terrace.groupsLess (t : Terrace) (k : Nat) : Nat := (t.allGroups.filter fun x => decide (x.goods.length + k ≤ 5)).length

/-- The slices that fail are retired, and what R133 says of their groups; fault 0x0003 is recorded once, however many groups have lost
two slices (log entry 101). -/
def Chip.selftestSlices (c : Chip) (slices : List Nat) : Chip :=
  let c := c.terraceSelftest slices
  let gone := (c.terrace.groups.map fun e : Nat × Group => 5 - e.2.goods.length).foldl (· + ·) 0
  let half := c.terrace.inMode 2 + c.terrace.inMode 3
  let c := (c.set F.BIST_TERRACE.RETIRED gone).set F.BIST_TERRACE.HALF_GROUPS half
  let two := c.terrace.groupsLess 2
  if 0 < c.terrace.groupsLess 3 ∨ 16 < two then c.fatal Code.BIST_TERRACE noUnit 0
  else if 0 < two then
    (c.set F.DEV_STATE.DEGRADE (c.fld F.DEV_STATE.DEGRADE ||| 4)).alert Code.BIST_TERRACE noUnit 0
  else c

/-- The Plain dies of a list, each once. -/
abbrev diesOf (dies : List Nat) : List Nat := (List.range 10).filter fun d => dies.contains d

/-- The Plain dies that fail (R133). -/
def Chip.selftestDies (c : Chip) (dies : List Nat) : Chip :=
  match diesOf dies with
  | [] => c
  | [d] => (c.alert Code.PLAIN_TRAIN d 0).loseDie d 1
  | _ :: d :: _ => c.fatal Code.PLAIN_TRAIN d 0

/-- A step of SELFTEST, unless a fatal outcome has ended it. -/
def Chip.inSelftest (c : Chip) (f : Chip → Chip) : Chip := if c.dev = .selftest then f c else c

/-- SELFTEST_COMPLETE: the outcomes in the order of R133; with none fatal the device enters LOAD. -/
def Chip.selftestComplete (c : Chip) (o : SelftestOutcome) : Chip :=
  c.inSelftest fun c =>
    let c := (c.set F.BIST_STATUS.VALE_FAIL (o.valeFail % 64)).setBit F.BIST_STATUS.SADDLE_FAIL o.saddleFail
    let c := c.set F.BIST_STATUS.PLAIN_LOST ((diesOf o.dies).foldl (fun b d => b + 2 ^ d) 0)
    let c := (c.surveySelftest o.survey).selftestPoints o.safe
    let c := if o.saddleFail then c.fatal Code.BIST_SADDLE noUnit 0 else c
    let c := c.inSelftest fun c => (c.selftestVales o.valeFail).selftestIslands
    let c := c.inSelftest fun c => if o.valeFail % 64 = 63 then c.fatal Code.BIST_VALE noUnit 0 else c
    let c := c.inSelftest fun c => c.selftestSlices o.slices
    let c := c.inSelftest fun c => c.selftestDies o.dies
    c.inSelftest fun c => c.enterLoad false

/-- SELFTEST_COMPLETE. -/
def execSelftestComplete (o : SelftestOutcome) (s : State) : Host.Outcome State Fault Refusal :=
  act (.selftestComplete o) (fun _ c => c.selftestComplete o) s

/-! ### LOAD to HOLD (R136, R140, R156) -/

/-- STARTUP_TIME takes the time to the first entry into HOLD, to the nearest microsecond (R140). -/
def Chip.startupTime (c : Chip) : Chip :=
  if c.startup.timing then
    { c.put A.STARTUP_TIME (Word.of (min 0xFFFFFFFF (rne (Int.ofNat (c.now - c.startup.exitedAt)) 1000).toNat)) with
      startup := { c.startup with timing := false } }
  else c

/-- LOAD_END: no load is in progress any more. A pending recovery produces no record (R625). -/
def Chip.loadEnd (c : Chip) : Chip :=
  if c.dev = .load ∧ c.loader.load.isNone = true then
    { c.startupTime.drawChallenge with egress := { c.startupTime.drawChallenge.egress with recovery := [] } }.enter .hold
  else c

/-- LOAD_END. -/
def execLoadEnd (s : State) : Host.Outcome State Fault Refusal := act .loadEnd (fun _ c => c.loadEnd) s

/-! ### Loss of lock (R91) -/

/-- A PLL whose loss is fatal: from FILL onward. -/
def Chip.pllFatal (c : Chip) (lock : Fld) : Chip :=
  if c.dev.portsAnswer && c.bit lock then (c.setBit lock false).fatal Code.PLL_UNLOCK noUnit 0 else c

/-- PLL_T, PLL_F or PLL_M loses lock: in SENSE all three restart (R130). -/
def Chip.pllCore (c : Chip) (lock : Fld) : Chip := if c.dev = .sense then c.pllLockTimeout else c.pllFatal lock

/-- PLL_UNLOCK. A PLL that does not run counts no loss of lock. -/
def Chip.pllUnlock (c : Chip) (p : Pll) : Chip :=
  match p with
  | .t => c.pllCore F.CLK_STATUS.PLL_T_LOCK
  | .f => c.pllCore F.CLK_STATUS.PLL_F_LOCK
  | .m => c.pllCore F.CLK_STATUS.PLL_M_LOCK
  | .s => c.pllFatal F.CLK_STATUS.PLL_S_LOCK
  | .c => if c.fld F.CSI_STATUS.STATE ≠ 0 then (c.alert Code.PLL_UNLOCK noUnit 0).csiDown else c
  | .v n => if decide (n < 6) && c.bit (vLock n) then c.valeUnlocked n else c

/-- PLL_UNLOCK. -/
def execPllUnlock (p : Pll) (s : State) : Host.Outcome State Fault Refusal :=
  act (.pllUnlock p) (fun _ c => c.pllUnlock p) s

/-! ### DEV_CTRL (R149, R157, R158) -/

/-- LAST_CMD reports a DEV_CTRL write. -/
abbrev Chip.lastCmd (c : Chip) (x : Nat) : Chip := c.set F.DEV_STATE.LAST_CMD x

/-- A command that does not act (R158). -/
def Chip.refuseCmd (c : Chip) (x : Nat) : Chip := (c.lastCmd x).reject

/-- A write of DEV_CTRL with a key, in a state whose ports answer: a bad key is refused (R157). -/
def Chip.keyed (c : Chip) (key : Nat) (f : Chip → Chip) : Chip := if key = 0x6050 then f c else c.refuseCmd 2

/-- A load, or programming of fuses, is in progress (R143, R596). -/
def Chip.busyForCmd (c : Chip) : Bool := c.loader.load.isSome || c.otp.job.isSome

/-- SOFT_RESET: acted on in every state that answers (R119, R141). -/
def Chip.softReset (c : Chip) (key : Nat) : Chip :=
  if c.dev.portsAnswer then c.keyed key fun c => (c.lastCmd 1).enterReset 4 else c

/-- SOFT_RESET. -/
def execSoftReset (key : Nat) (s : State) : Host.Outcome State Fault Refusal :=
  act (.softReset key) (fun _ c => c.softReset key) s

/-- Entry to RUN or DEGRADED; the first tick edge is still to come (R72, R73, R115, R144). -/
def Chip.enterRun (c : Chip) : Chip :=
  let c := { c with
    sched := { c.sched with starting := true, drain := false, lanes := [], done := [], marred := [], marredPrev := [],
                            swapTick := false, edgeHalf := false, spillEnd := 0 }
    egress := { c.egress with wraps := 0, metas := [] } }
  let c := ((c.raise F.TICK_STATUS.RUNNING).set F.TICK_STATUS.SLOT 0).slaveEnterRun
  let c := ((c.islandsEnterRun.loopEnterRun).pixelEnterRun).terraceEnterRun
  c.enter (if c.fld F.DEV_STATE.DEGRADE = 0 then .run else .degraded)

/-- GO (R143). A push or programming in progress is reported before the lack of an image (log entry 19); in a state without GO the
command is refused (R158). -/
def Chip.go (c : Chip) (key : Nat) : Chip :=
  if c.dev.portsAnswer then
    c.keyed key fun c =>
      if c.dev ≠ .hold then c.refuseCmd 3
      else if c.busyForCmd then c.refuseCmd 4
      else if !c.bit F.DEV_STATE.IMAGE_OK then c.refuseCmd 5
      else (c.lastCmd 1).enterRun
  else c

/-- GO. -/
def execGo (key : Nat) (s : State) : Host.Outcome State Fault Refusal := act (.go key) (fun _ c => c.go key) s

/-- STOP (R146, R147, R193). -/
def Chip.stop (c : Chip) (key : Nat) : Chip :=
  if c.dev.portsAnswer then
    c.keyed key fun c =>
      if c.dev.ticking then
        let c := c.lastCmd 1
        if c.bit F.DEV_STATE.STOPPING then c else (c.raise F.DEV_STATE.STOPPING).stopHot
      else c.refuseCmd 3
  else c

/-- STOP. -/
def execStop (key : Nat) (s : State) : Host.Outcome State Fault Refusal := act (.stop key) (fun _ c => c.stop key) s

/-- RELOAD (R135). -/
def Chip.reload (c : Chip) (key : Nat) : Chip :=
  if c.dev.portsAnswer then
    c.keyed key fun c =>
      if c.dev ≠ .hold then c.refuseCmd 3
      else if c.busyForCmd then c.refuseCmd 4
      else (c.lastCmd 1).enterLoad true
  else c

/-- RELOAD. -/
def execReload (key : Nat) (s : State) : Host.Outcome State Fault Refusal := act (.reload key) (fun _ c => c.reload key) s

end Sys2Proof.Machine
end

