-- ==== Sys2Proof/Machine/HostRegs.lean ====
section
/-!
DEFINITION. Machine/HostRegs.lean: every register as the host reads it and writes it (R10 to R22, R141, R520, R657): the
words that a rule computes, the side effects of a read, and the actions of a write.
-/
namespace Sys2Proof.Machine

/-! ### Words that a rule computes -/

/-- The layer and the descriptor that RT_SEL names (R376). -/
def Chip.rtLayer (c : Chip) : Option (Layer × LayerRec) :=
  match c.layers[c.fld F.RT_SEL.LAYER]?, c.image.layerRecs[c.fld F.RT_SEL.LAYER]? with
  | some x, some r => some (x, r)
  | _, _ => none

/-- Experts of the seats once the pending revision is in force (R366). -/
def Layer.seatsAfter (x : Layer) : List (Option Nat) :=
  match x.pending with
  | none => x.seats
  | some p => x.seats.zipIdx.map fun s => match p.getD s.2 none with | some e => some e | none => s.1

/-- Pending seats that are not yet fully copied. -/
def Layer.movesLeft (x : Layer) (r : LayerRec) : Nat :=
  match x.pending with
  | none => 0
  | some p => (p.zipIdx.filter fun s => s.1.isSome && decide (natAt x.copied s.2 < r.wsize)).length

/-- Seats that carry an expert. -/
def carrying (seats : List (Option Nat)) (e : Nat) : Nat := (seats.filter fun s => s == some e).length

/-- RT_STATUS, RT_LOAD, RT_LOAD_PERIOD, RT_REPLICAS and RT_LAYER_TICK of a layer. -/
def Chip.rtWord (c : Chip) (a : Nat) (x : Layer) (r : LayerRec) : Word :=
  let e := c.fld F.RT_SEL.EXPERT
  let cap (n : Nat) : Nat := min 65535 n
  if a = A.RT_STATUS then
    Word.of (x.movesLeft r * 65536 + x.version % 256 * 256 + 2 * (c.layerFrozen r).toNat + x.pending.isSome.toNat)
  else if a = A.RT_LOAD then Word.of (cap (natAt x.lastDemand e) * 65536 + cap (natAt x.lastAccepted e))
  else if a = A.RT_LOAD_PERIOD then Word.of (min 0xFFFFFFFF (natAt x.period e))
  else if a = A.RT_REPLICAS then
    Word.of ((if x.pending.isSome then carrying x.seatsAfter e else 0xFF) * 256 + carrying x.seats e)
  else Word.of (cap x.lastDropped * 65536 + cap x.lastRouted)

/-- RT_SEAT[s] of a layer. -/
def Chip.rtSeatWord (c : Chip) (s : Nat) (x : Layer) (r : LayerRec) : Word :=
  if s < x.seats.length then
    let pend := match x.pending with | some p => (p.getD s none).getD 0xFF | none => 0xFF
    Word.of ((x.banks.getD s false).toNat * 0x20000 + (c.fenced (r.seat s).vale).toNat * 0x10000 + pend * 256 +
      (x.seats.getD s none).getD 0xFF)
  else 0xFFFF

/-- The 48-bit PID (R532). -/
def Chip.pid (c : Chip) : Nat :=
  Config.manufacturer.toNat * 0x200000000 + 0x60500000 + c.fld F.STRAPS.ADDR_SEL * 0x1000 + serialOf c.otp.sensed % 0x1000

/-- HIF_STATUS (R548). -/
def Chip.hifStatusWord (c : Chip) : Word :=
  let n := c.host.writes.length
  Word.of (512 * c.host.eightD.toNat + 256 * (decide (256 ≤ n)).toNat + min 255 n)

/-- Word `i` of the fault ring (R609, R633). -/
def Chip.faultLogWord (c : Chip) (i : Nat) : Word :=
  match c.faults.find? fun e : LogEntry => e.index % 32 == i / 8 with
  | some e => Word.of (leAt e.payload (4 * (i % 8)) 4)
  | none => 0

/-- LENS_CAL_STATUS: the slots used and the one in force follow the fuses (R508, R516). -/
def Chip.lensStatusWord (c : Chip) : Word :=
  let r := c.otp.lastRead
  let used := ((List.range 16).filter (slotUsed r)).foldl (fun n s => n + 2 ^ s) 0
  withField (withField (c.word A.LENS_CAL_STATUS) 16 5 ((slotInForce c.otp.lensRead).getD 31)) 0 16 used

/-- EGR_STATUS: the ceiling and the lowerings follow the fuses (R565, R576). -/
def Chip.egrStatusWord (c : Chip) : Word :=
  withField (withField (c.word A.EGR_STATUS) 8 4 (loweringCount (c.otpInForce 11))) 0 3 c.ceiling

/-- A half of a 64-bit value, low half first. -/
def halfWord (v : Nat) (hi : Bool) : Word := Word.of (if hi then v / 0x100000000 else v)

/-- A word of the DEVICE, IMAGE, ARRAY and TERRACE blocks that a rule computes. -/
def Chip.viewLow (c : Chip) (a : Nat) : Option Word :=
  if a = A.DEVICE_REV then some (withField (c.word a) 8 4 c.mosaic)
  else if a = A.DEV_STATE then some (withField (c.word a) 0 4 c.dev.code)
  else if a = A.DEV_SERIAL_LO then some (halfWord (serialOf c.otp.sensed) false)
  else if a = A.DEV_SERIAL_HI then some (halfWord (serialOf c.otp.sensed) true)
  else if a = A.IMG_ROLLBACK then some (withField (c.word a) 0 7 (rollbackCounter (c.otpInForce 9)))
  else if a = A.TER_STATUS then some c.terStatusWord
  else if a = A.TER_GROUPS then some c.terGroupsWord
  else if A.TER_MODE_MAP ≤ a ∧ a < A.TER_MODE_MAP + 256 then some (c.modeMapWord ((a - A.TER_MODE_MAP) / 4))
  else if a = A.SRV_STATUS then some c.srvStatusWord
  else if a = A.SRV_IRQ_STATUS then some c.srvIrqWord
  else if a = A.SRV_FIFO_TAG then some c.srvTagWord
  else if a = A.SRV_FIFO_DATA then some c.srvDataWord
  else none

/-- A word of the VALE, PASS and MEMORY blocks that a rule computes. -/
def Chip.viewMid (c : Chip) (a : Nat) : Option Word :=
  if 0x8000 ≤ a ∧ a < 0xE000 then
    let n := (a - 0x8000) / 0x1000
    if a % 0x1000 = A.VALE_VOLT % 0x1000 then some (c.valeVoltWord n)
    else if a % 0x1000 = A.APX_VSTATE % 0x1000 then some (c.apxStateWord n)
    else none
  else if a = A.Q_FROZEN_COUNT then some (Word.of c.mem.frozenQueues.length)
  else if a = A.MEM_STATUS then some (Word.of (c.dev.portsAnswer.toNat * 0x80000000 + c.mem.lines.length))
  else if A.RT_SEAT ≤ a ∧ a < A.RT_SEAT + 256 then c.rtLayer.map fun x => c.rtSeatWord ((a - A.RT_SEAT) / 4) x.1 x.2
  else if a = A.RT_STATUS ∨ a = A.RT_LOAD ∨ a = A.RT_LOAD_PERIOD ∨ a = A.RT_REPLICAS ∨ a = A.RT_LAYER_TICK then
    c.rtLayer.map fun x => c.rtWord a x.1 x.2
  else none

/-- A word of the blocks above 0x1_0000 that a rule computes. -/
def Chip.viewHigh (c : Chip) (a : Nat) : Option Word :=
  if a = A.LENS_CAL_STATUS then some c.lensStatusWord
  else if a = A.LENS_CAL_RD_LO then some (halfWord (slotData c.otp.lensRead (c.fld F.LENS_CAL_SEL.SLOT)) false)
  else if a = A.LENS_CAL_RD_HI then some (halfWord (slotData c.otp.lensRead (c.fld F.LENS_CAL_SEL.SLOT)) true)
  else if a = A.HIF_STATUS then some c.hifStatusWord
  else if a = A.HIF_IRQ_STATUS then some c.irqStatusWord
  else if a = A.I3C_PID_LO then some (halfWord c.pid false)
  else if a = A.I3C_PID_HI then some (halfWord c.pid true)
  else if a = A.TIME_LO then some (halfWord c.timebase false)
  else if a = A.TIME_HI then some (halfWord c.timebase true)
  else if a = A.EGR_STATUS then some c.egrStatusWord
  else if a = A.SEAL_PREFIX_LO then some (halfWord c.egress.pfx false)
  else if a = A.SEAL_PREFIX_HI then some (halfWord c.egress.pfx true)
  else if A.OTP_REGION ≤ a ∧ a < A.OTP_REGION + 64 then some (c.otpRegionWord ((a - A.OTP_REGION) / 4))
  else if A.OTP_DATA ≤ a ∧ a < A.OTP_DATA + 1024 then some (c.otpDataWord ((a - A.OTP_DATA) / 4))
  else if a = A.FLT_COND then some c.condWord
  else if A.FLT_LOG ≤ a ∧ a < A.FLT_LOG + 1024 then some (c.faultLogWord ((a - A.FLT_LOG) / 4))
  else none

/-! ### Reads -/

/-- The word that a read of the register at `a` returns: 0 at a reserved word (R658), and 0 in its WO and W1S bits (R17). -/
def Chip.readWord (c : Chip) (a : Nat) : Word :=
  match rowOf a with
  | none => 0
  | some r =>
    let v := ((c.viewLow a).orElse fun _ => (c.viewMid a).orElse fun _ => c.viewHigh a).getD (c.word a)
    v &&& ~~~(Word.of r.hid)

/-- A port's fetch samples the register at `a` once, with the side effects of the read (R258, R520, R522, R545). The read of TIME_HI ends
the hold (log entry 121). -/
def Chip.sampleWord (c : Chip) (p : Port) (a : Nat) : Word × Chip :=
  if a = A.SRV_FIFO_DATA then (c.readWord a, c.srvPop)
  else if a = A.TIME_LO then (c.readWord a, c.captureTime p)
  else if a = A.TIME_HI then
    match c.heldTime p with
    | some w => (w, c.holdTime p none)
    | none => (c.readWord a, c)
  else (c.readWord a, c)

/-! ### Writes -/

/-- DEV_CTRL: of the commands set, one acts (R149). A bad key with none of them set is refused too (R157). -/
def Chip.devCtrlWrite (c : Chip) (v : Word) : Chip :=
  let key := fieldOf v 16 16
  if acts v F.DEV_CTRL.SOFT_RESET then c.softReset key
  else if acts v F.DEV_CTRL.STOP then c.stop key
  else if acts v F.DEV_CTRL.RELOAD then c.reload key
  else if acts v F.DEV_CTRL.GO then c.go key
  else if c.dev.portsAnswer then c.keyed key id
  else c

/-- IMG_CTRL: SWAP_ARM is stored, and ABORT acts before START (log entry 50). -/
def Chip.imgCtrlWrite (c : Chip) (v : Word) : Chip :=
  let c := c.storeWord A.IMG_CTRL v
  (c.when_ (acts v F.IMG_CTRL.ABORT) Chip.loadAbort).when_ (acts v F.IMG_CTRL.START) Chip.loadStart

/-- FLT_CTRL: FENCE acts before MOVER_RESET (R633); a bad key with neither is refused (log entry 20). -/
def Chip.fltCtrlWrite (c : Chip) (v : Word) : Chip :=
  let key := fieldOf v 16 16
  if acts v F.FLT_CTRL.FENCE then c.fenceWrite key (fieldOf v 0 3)
  else if acts v F.FLT_CTRL.MOVER_RESET then c.moverReset key (fieldOf v 4 1)
  else if key = 0x464C then c else c.reject

/-- SCRUB_T_CTRL: MEM is stored; GO, then ABORT. -/
def Chip.scrubCtrlWrite (c : Chip) (v : Word) : Chip :=
  let c := c.storeWord A.SCRUB_T_CTRL v
  (c.when_ (acts v F.SCRUB_T_CTRL.GO) fun c => c.scrubGo (fieldOf v 3 1)).when_ (acts v F.SCRUB_T_CTRL.ABORT) Chip.scrubAbort

/-- OTP_CTRL: ABORT, or a request (R596, R599, R605). -/
def Chip.otpCtrlWrite (c : Chip) (fz : Fuses) (v : Word) : Chip :=
  if fieldOf v 12 4 = 0xF then c.otpAbort fz (fieldOf v 16 16)
  else c.otpRequest fz (fieldOf v 16 16) (fieldOf v 12 4) (fieldOf v 8 4) (fieldOf v 6 2)

/-- A write to a register of the blocks that no image gives defaults to, and of those it may. -/
def Chip.openWrite (c : Chip) (fz : Fuses) (a : Nat) (v : Word) : Chip :=
  if a = A.DEV_CTRL then c.devCtrlWrite v
  else if a = A.LC_CTRL then c.lcCtrl fz (fieldOf v 16 16) (fieldOf v 0 3)
  else if A.LC_AUTH ≤ a ∧ a < A.LC_AUTH + 64 then c.put a v
  else if a = A.OVERRUN_LOG then c.when_ (acts v F.OVERRUN_LOG.CLR) Chip.overrunLogClr
  else if a = A.IMG_CTRL then c.imgCtrlWrite v
  else if a = A.Q_SEL then c.qSelWrite (fieldOf v 0 16)
  else if a = A.Q_FREEZE_CTRL then
    c.when_ (fieldOf v 16 2 == 1 || fieldOf v 16 2 == 2) fun c => c.qUnfreeze (fieldOf v 0 16) (fieldOf v 16 2)
  else if a = A.QH_CTRL then c.qhCtrl (fieldOf v 0 16) (fieldOf v 16 2)
  else if a = A.RT_CTRL then (c.storeWord a v).when_ (acts v F.RT_CTRL.CLR_COUNTS) Chip.rtClrCounts
  else if a = A.ECC_CTRL then c.when_ (acts v F.ECC_CTRL.DECLARE) fun c => c.eccDeclare (fieldOf v 16 16) (fieldOf v 0 4)
  else if a = A.SCRUB_T_CTRL then c.scrubCtrlWrite v
  else if a = A.OTP_CTRL then c.otpCtrlWrite fz v
  else if a = A.FLT_ACTIVE then c.fltActiveClear v.toNat 0
  else if a = A.FLT_CTRL then c.fltCtrlWrite v
  else if a = A.FLT_STOP then c.when_ (acts v F.FLT_STOP.CLR) Chip.fltStopClr
  else if a = A.FLT_FIRST then c.when_ (acts v F.FLT_FIRST.CLR) Chip.fltFirstClr
  else c.blockWrite fz a v

/-- The FAULT block. -/
def faultBlock (a : Nat) : Bool := decide (0x15000 ≤ a) && decide (a < 0x16000)

/-- The state acts on a write to this register (R141). -/
def Chip.actsOn (c : Chip) (a : Nat) : Bool :=
  match c.dev with
  | .hold | .run | .degraded => true
  | .fill | .selftest | .load => a == A.DEV_CTRL
  | .faultStop => a == A.DEV_CTRL || faultBlock a
  | _ => false

/-- A write in a state that does not act on it (R141): a request whose rule says how it is reported there is reported (R18, R152, R183,
R446, R483, R503, R509, R513, R538, R596, R633; log entry 119). -/
def Chip.ignoredWrite (c : Chip) (fz : Fuses) (a : Nat) (v : Word) : Chip :=
  if a = A.IMG_CTRL then c.when_ (acts v F.IMG_CTRL.START) Chip.loadStart
  else if a = A.VCM_CTRL then c.when_ (acts v F.VCM_CTRL.ENABLE) Chip.vcmEnable
  else if a = A.CSI_CTRL then c.when_ (acts v F.CSI_CTRL.START) Chip.csiStart
  else if a = A.LC_CTRL ∨ a = A.QH_CTRL ∨ a = A.ECC_CTRL ∨ a = A.OTP_CTRL ∨ a = A.FLT_CTRL ∨ a = A.LENS_CAL_PROG ∨
      a = A.PRIV_CTRL then
    c.openWrite fz a v
  else c

/-- A host write of a whole register word (R520): reserved words ignore it, and so do states that do not act on it. -/
def Chip.hostRegWrite (c : Chip) (fz : Fuses) (a : Nat) (v : Word) : Chip :=
  if (rowOf a).isSome then if c.actsOn a then c.accept a fun c => c.openWrite fz a v else c.ignoredWrite fz a v else c

end Sys2Proof.Machine
end

