-- ==== Sys2Proof/Machine/HostIo.lean ====
section
/-!
DEFINITION. Machine/HostIo.lean: the host's address space as both ports reach it: the write queue (R521), the windows of the
Basins and the Plain (R2, R408, R416, R418), the Glance window (R526 to R530), the fetches of R522, and the commands of the
xSPI port (R523 to R525).
-/
namespace Sys2Proof.Machine

/-- Change the host block. -/
def Chip.setHost (c : Chip) (f : HostIf → HostIf) : Chip := { c with host := f c.host }

/-! ### The write queue (R521) -/

/-- Post a write to an address and perform it; with the queue full it is discarded. -/
def Chip.posted (c : Chip) (a : Nat) (f : Chip → Chip) : Chip :=
  if c.host.writes.length < 256 then f (c.setHost fun h => { h with writes := h.writes ++ [⟨a, false⟩] })
  else (c.raise F.HIF_EVENTS.WRITE_OVERFLOW).alertOnce Code.HOST_WRITE_OVERFLOW noUnit 0

/-- The oldest entry whose flit has not left goes out. -/
def sendFirst : List Posted → List Posted
  | [] => []
  | w :: ws => if w.sent then w :: sendFirst ws else { w with sent := true } :: ws

/-- REG: a register-access flit reaches its block, which replies (R464). -/
def Chip.regFlit (c : Chip) : Chip :=
  match c.host.writes.find? fun w : Posted => !w.sent with
  | none => c
  | some w =>
    (c.setHost fun h => { h with writes := sendFirst h.writes }).reply
      { kind := .regReply, src := 0, dst := 0, vc := 3, tag := 0, mem := 0xF, addr := w.addr, bytes := 4, data := [], popped := false }

/-- REG. -/
def execReg (s : State) : Host.Outcome State Fault Refusal := act .reg (fun _ c => c.regFlit) s

/-- One write less stands before a fetch. -/
def Fetch.acked (f : Fetch) : Fetch := { f with behind := f.behind - 1 }

/-- REG_REPLY: the oldest write is acknowledged (R471). -/
def Chip.regReply (c : Chip) : Chip :=
  match firstReply (fun r => r.kind == .regReply && r.dst == 0) c.fabric.net with
  | none => c
  | some (_, rest) =>
    { c with fabric := { c.fabric with net := rest } }.setHost fun h =>
      { h with writes := h.writes.drop 1, fetchX := h.fetchX.map Fetch.acked, fetchI := h.fetchI.map Fetch.acked }

/-- REG_REPLY. -/
def execRegReply (s : State) : Host.Outcome State Fault Refusal := act .regReply (fun _ c => c.regReply) s

/-! ### The windows of the Basins and the Plain -/

/-- The lifecycle state opens the windows (R1, R2). -/
def Chip.windowLifecycle (c : Chip) : Bool := c.lifecycle == 2 || c.lifecycle == 4

/-- Writes act in these windows (R141). -/
def Chip.windowWritable (c : Chip) : Bool := c.windowLifecycle && c.dev.open

/-- Reads of these windows return contents (R141). -/
def Chip.windowReadable (c : Chip) : Bool := c.windowLifecycle && (c.dev.open || c.dev == .faultStop)

/-- A host write to the Basins from an offset on: Basins 0 to 3 take it only in HOLD, and in every other state in which the port answers
the write is told of (R408). -/
def Chip.basinWrite (c : Chip) (off : Nat) (bs : List Byte) : Chip :=
  if c.windowLifecycle && c.dev.portsAnswer then
    let low := bs.take (0x200000 - off)
    let c := if low.isEmpty then c
      else if c.dev = .hold then c.memWrite 0 off (low.map MByte.clean)
      else (c.raise F.MEM_EVENTS.HOST_FORBIDDEN).alert Code.HOSTWIN_FORBIDDEN noUnit 0
    if c.dev.open then c.memWrite 0 (max off 0x200000) ((bs.drop (0x200000 - off)).map MByte.clean) else c
  else c

/-- The line buffer closes, or stands at a line with what has been written. -/
def Chip.setHostLine (c : Chip) (l : Option (Nat × List (Option Byte))) : Chip :=
  let c := { c with mem := { c.mem with hostLine := l } }
  match l with
  | none => (c.put A.HOSTWIN_LINE 0xFFFFFFFF).put A.HOSTWIN_STATUS 0
  | some (a, buf) =>
    let n := (buf.filter fun b : Option Byte => b.isSome).length
    (c.put A.HOSTWIN_LINE (Word.of (64 * a))).put A.HOSTWIN_STATUS (Word.of (128 + n))

/-- One byte for the line buffer (R418). -/
def Chip.plainByte (c : Chip) (off : Nat) (b : Byte) : Chip :=
  let a := off / 64
  let empty : List (Option Byte) := List.replicate 64 none
  let (c, buf) := match c.mem.hostLine with
    | none => (c, empty)
    | some (l, buf) =>
      if l = a then (c, buf) else ((c.raise F.MEM_EVENTS.HOST_PARTIAL).alert Code.HOSTWIN_PARTIAL noUnit 0, empty)
  let buf := buf.set (off % 64) (some b)
  if buf.all fun x : Option Byte => x.isSome then
    (c.setHostLine none).plainWriteLine a (buf.map fun x : Option Byte => MByte.clean (x.getD 0))
  else c.setHostLine (some (a, buf))

/-- A host write to the Plain from an offset on; bytes past its end are lost. -/
def Chip.plainHostWrite (c : Chip) (off : Nat) (bs : List Byte) : Chip :=
  if c.windowWritable then
    (bs.take (0x40000000 - off)).zipIdx.foldl (fun c b => c.plainByte (off + b.2) b.1) c
  else c

/-- A host write at an address of a window; nothing lies between the Basins and the Plain (R408). -/
def Chip.windowWrite (c : Chip) (a : Nat) (bs : List Byte) : Chip :=
  if 0x40000000 ≤ a then c.plainHostWrite (a - 0x40000000) bs
  else if a < 0x13000000 then c.basinWrite (a - 0x10000000) bs
  else c

/-- The parts of `n` bytes from an address on that lie in one aligned 64-byte block each: address and length. -/
def pieces : Nat → Nat → Nat → List (Nat × Nat)
  | 0, _, _ => []
  | f + 1, a, n =>
    if n = 0 then [] else (a, min n (64 - a % 64)) :: pieces f (a + min n (64 - a % 64)) (n - min n (64 - a % 64))

/-- What a host gets for a byte: 0xFF for a poisoned one (R408, R416, R418, R530). -/
def hostByte (b : MByte) : Byte := if b.p then 0xFF else b.v

/-- A read that met poison tells so. -/
def Chip.hostPoison (c : Chip) (bs : List MByte) : Chip :=
  if bs.any fun b : MByte => b.p then (c.raise F.MEM_EVENTS.HOST_POISON).alert Code.HOSTWIN_POISON noUnit 0 else c

/-- A host read of `n` bytes of a window within one 64-byte block. -/
def Chip.windowRead (c : Chip) (a n : Nat) : List Byte × Chip :=
  if !c.windowReadable then (List.replicate n 0, c)
  else if 0x40000000 ≤ a then
    let off := a - 0x40000000
    let mapped := c.mem.mapped (off / 64)
    let (bs, c) := c.memRead .host 8 off n
    (bs.map hostByte, if mapped then c.hostPoison bs else c)
  else if a < 0x13000000 then
    let (bs, c) := c.memRead .host 0 (a - 0x10000000) n
    (bs.map hostByte, c.hostPoison bs)
  else (List.replicate n 0, c)

/-- Read pieces one after the other. -/
def Chip.windowReads : List (Nat × Nat) → Chip → List Byte × Chip
  | [], c => ([], c)
  | p :: ps, c =>
    let (bs, c) := c.windowRead p.1 p.2
    let (rest, c) := Chip.windowReads ps c
    (bs ++ rest, c)

/-- The address lies in the windows of R2. -/
def inWindows (a : Nat) : Bool := decide (0x10000000 ≤ a) && decide (a < 0x80000000)

/-- Write window data by pieces, one entry of the write queue each. -/
def Chip.windowWrites : List (Nat × Nat) → List Byte → Chip → Chip
  | [], _, c => c
  | p :: ps, bs, c => Chip.windowWrites ps (bs.drop p.2) (c.posted p.1 fun c => c.windowWrite p.1 (bs.take p.2))

/-- A host write at an address of the windows, of any length. -/
def Chip.hostWrite (c : Chip) (a : Nat) (bs : List Byte) : Chip :=
  if c.dev.portsAnswer then Chip.windowWrites (pieces bs.length a bs.length) bs c else c

/-- HOST_BASIN_WRITE. -/
def execHostBasinWrite (offset : Nat) (bytes : List Byte) (s : State) : Host.Outcome State Fault Refusal :=
  act (.hostBasinWrite offset bytes) (fun _ c => c.hostWrite (0x10000000 + offset) bytes) s

/-- HOST_PLAIN_WRITE. -/
def execHostPlainWrite (offset : Nat) (bytes : List Byte) (s : State) : Host.Outcome State Fault Refusal :=
  act (.hostPlainWrite offset bytes) (fun _ c => c.hostWrite (0x40000000 + offset) bytes) s

/-- A host read of `count` bytes of the windows: what the xSPI port returns. -/
def Chip.hostWindowRead (c : Chip) (a count : Nat) : Chip :=
  if c.dev.portsAnswer then
    let (bs, c) := Chip.windowReads (pieces count a count) c
    c.answer .xspi bs
  else c

/-- HOST_WINDOW_READ. -/
def execHostWindowRead (addr count : Nat) (s : State) : Host.Outcome State Fault Refusal :=
  act (.hostWindowRead addr count) (fun _ c => c.hostWindowRead addr count) s

/-! ### Register words and transfers of bytes (R519, R520) -/

/-- A whole register word arrives. -/
def Chip.wordArrives (c : Chip) (fz : Fuses) (a : Nat) (v : Word) : Chip :=
  if c.dev.portsAnswer then c.posted a fun c => c.hostRegWrite fz a v else c

/-- REGISTER_WRITE. -/
def execRegisterWrite (addr : Nat) (value : Word) (s : State) : Host.Outcome State Fault Refusal :=
  act (.registerWrite addr value) (fun fz c => c.wordArrives fz addr value) s

/-- The push aperture (R182). -/
def inAperture (a : Nat) : Bool := decide (0x2800 ≤ a) && decide (a < 0x3000)

/-- Bytes for the push aperture: of those that no push takes, the first tells so (R182 to R184). -/
def Chip.pushBytes (c : Chip) (told : Bool) : List Byte → Chip
  | [] => c
  | b :: bs =>
    if c.pushTaking.isSome then (c.pushByte b).pushBytes told bs
    else if told then c
    else (c.pushByte b).pushBytes true bs

/-- Bytes for the register region, the aperture apart: whole aligned words act, the bytes of any other word are dropped. -/
def Chip.registerBytes (fz : Fuses) : Nat → Nat → List Byte → Chip → Chip
  | 0, _, _, c => c
  | f + 1, a, bs, c =>
    let n := 4 - a % 4
    let c := if a % 4 = 0 ∧ 4 ≤ bs.length then c.wordArrives fz a (Word.of (leNat (bs.take 4))) else c
    if bs.isEmpty then c else Chip.registerBytes fz f (a + n) (bs.drop n) c

/-- The bytes of a transfer that lie between two addresses, the transfer starting at `a`: the address of the first, and the
bytes. -/
def between (a : Nat) (bs : List Byte) (lo hi : Nat) : Nat × List Byte :=
  (max a lo, (bs.drop (lo - a)).take (hi - max a lo))

/-- A transfer carries bytes to ascending addresses (R519, R520). Only the xSPI port pushes (R182); the Glance window and
what nothing occupies take no write. -/
def Chip.bytesArrive (c : Chip) (fz : Fuses) (push : Bool) (a : Nat) (bs : List Byte) : Chip :=
  let region (lo hi : Nat) (c : Chip) : Chip :=
    let r := between a bs lo hi
    Chip.registerBytes fz (r.2.length + 1) r.1 r.2 c
  let c := region 0 0x2800 c
  let c := if push then c.pushBytes false (between a bs 0x2800 0x3000).2 else c
  let c := region 0x3000 0x20000 c
  let r := between a bs 0x10000000 0x80000000
  c.hostWrite r.1 r.2

/-! ### The Glance window (R526 to R530) -/

/-- The address lies in the Glance window. -/
def inGlance (a : Nat) : Bool := decide (0x20000 ≤ a) && decide (a < 0x22000)

/-- Bytes of the front buffer from an offset on; beyond the window they read 0x00. -/
def Chip.glanceBytes (c : Chip) (off count : Nat) : List Byte × Chip :=
  let n := min count (0x2000 - off)
  let (bs, c) := Chip.sramRead false (memKey 9 (0x2000 * c.host.front + off)) n c
  let c := if bs.any fun b : MByte => b.p then c.raise F.HIF_EVENTS.GLANCE_POISON else c
  (bs.map hostByte ++ List.replicate (count - n) 0, c)

/-! ### Fetches (R522) -/

/-- The fetch buffer of a port. -/
def Chip.fetchOf (c : Chip) : Port → Option Fetch
  | .xspi => c.host.fetchX
  | .i3c => c.host.fetchI

/-- Put a fetch buffer in place. -/
def Chip.setFetch (c : Chip) (p : Port) (f : Option Fetch) : Chip :=
  match p with
  | .xspi => c.setHost fun h => { h with fetchX := f }
  | .i3c => c.setHost fun h => { h with fetchI := f }

/-- A read at another address drops what the buffer holds; a fetch still under way is given up with it. -/
def Chip.dropFetch (c : Chip) (p : Port) : Chip :=
  match c.fetchOf p with
  | some f => (if f.held.isSome && !f.returned then c.raise F.HIF_EVENTS.FETCH_DISCARD else c).setFetch p none
  | none => c

/-- A read that starts at an address: the block held for it is kept, or a new fetch waits for the writes before it. -/
def Chip.readStarts (c : Chip) (p : Port) (a : Nat) : Chip :=
  if (c.fetchOf p).any fun f : Fetch => f.addr == a then c
  else (c.dropFetch p).setFetch p (some { addr := a, behind := c.host.writes.length, held := none, returned := false })

/-- Words of the register map from an address on, each sampled once. -/
def Chip.sampleWords (p : Port) : Nat → Nat → Chip → List Byte × Chip
  | 0, _, c => ([], c)
  | n + 1, a, c =>
    let (w, c) := c.sampleWord p a
    let (bs, c) := Chip.sampleWords p n (a + 4) c
    (leBytes 4 w.toNat ++ bs, c)

/-- What a fetch brings: the bytes from its address to the end of the 64-byte block. -/
def Chip.fetchBytes (c : Chip) (p : Port) (a : Nat) : List Byte × Chip :=
  let n := 64 - a % 64
  if a < 0x20000 then
    let (bs, c) := Chip.sampleWords p ((n + 3) / 4) (a / 4 * 4) c
    (bs.drop (a % 4), c)
  else if inWindows a then c.windowRead a n
  else (List.replicate n 0, c)

/-- Mark the held block of a port as returned. -/
def Chip.markReturned (c : Chip) (p : Port) : Chip :=
  c.setFetch p ((c.fetchOf p).map fun f : Fetch => { f with returned := true })

/-! ### The xSPI port (R523 to R526) -/

/-- The transaction in progress ends: a change of mode is made (R524). -/
def Chip.endTxn (c : Chip) : Chip :=
  c.setHost fun h => { h with txn := none, eightD := match h.txn with | some (.mode b) => b | _ => h.eightD }

/-- XSPI_CS_RISE. -/
def execXspiCsRise (s : State) : Host.Outcome State Fault Refusal := act .xspiCsRise (fun _ c => c.endTxn) s

/-- A transaction begins; the port answers from FILL onward (R114). -/
def Chip.inTxn (c : Chip) (t : Txn) (f : Chip → Chip) : Chip :=
  if c.dev.portsAnswer then f (c.endTxn.setHost fun h => { h with txn := some t }) else c

/-- A response that is READY: COUNT bytes are valid, and further ones read 0x00 (R525). -/
def readyAnswer (bs : List Byte) (count : Nat) : List Byte := [0, Byte.of bs.length, 0, 0] ++ padTo count (bs.take count)

/-- A response that is BUSY. -/
def busyAnswer (count : Nat) : List Byte := [1, 0, 0, 0] ++ List.replicate count 0

/-- The answer to a READ outside the Glance window, as the fetch stands. -/
def Chip.readAnswer (c : Chip) (count : Nat) : Chip :=
  match c.host.fetchX.bind fun f : Fetch => f.held with
  | some bs => (c.markReturned .xspi).answer .xspi (readyAnswer bs count)
  | none => c.answer .xspi (busyAnswer count)

/-- A READ of the Glance window, by 8D-8D-8D from an even address (R526); it is a read at another address for the fetch buffer. -/
def Chip.glanceRead (c : Chip) (a count : Nat) : Chip :=
  let off := if c.host.eightD then (a - 0x20000) / 2 * 2 else a - 0x20000
  let (bs, c) := (c.dropFetch .xspi).glanceBytes off count
  c.answer .xspi bs

/-- READ. -/
def Chip.xspiRead (c : Chip) (a count : Nat) : Chip :=
  if inGlance a then c.inTxn .glance fun c => c.glanceRead a count
  else c.inTxn (.read a count) fun c => (c.readStarts .xspi a).readAnswer count

/-- READ. -/
def execRead (addr count : Nat) (s : State) : Host.Outcome State Fault Refusal :=
  act (.read addr count) (fun _ c => c.xspiRead addr count) s

/-- WRITE. -/
def Chip.xspiWrite (c : Chip) (fz : Fuses) (a : Nat) (bs : List Byte) : Chip :=
  c.inTxn .write fun c => c.bytesArrive fz true a bs

/-- WRITE. -/
def execWrite (addr : Nat) (bytes : List Byte) (s : State) : Host.Outcome State Fault Refusal :=
  act (.write addr bytes) (fun fz c => c.xspiWrite fz addr bytes) s

/-- A command that the port does not recognize in its mode (R524). -/
def Chip.badCommand (c : Chip) : Chip :=
  c.inTxn .bad fun c => (c.raise F.HIF_EVENTS.BAD_COMMAND).alertOnce Code.XSPI_BAD_COMMAND noUnit 0

/-- ENTER_8D and EXIT_8D: a command of the mode left, which acts from the next transaction. -/
def Chip.switchMode (c : Chip) (to8d : Bool) : Chip :=
  if c.endTxn.host.eightD = to8d then c.badCommand else c.inTxn (.mode to8d) id

/-- ENTER_8D. -/
def execEnter8d (s : State) : Host.Outcome State Fault Refusal := act .enter8d (fun _ c => c.switchMode true) s

/-- EXIT_8D. -/
def execExit8d (s : State) : Host.Outcome State Fault Refusal := act .exit8d (fun _ c => c.switchMode false) s

/-- The opcode is one of the mode in force, with the extension byte that the mode asks for. -/
def Chip.commandGood (c : Chip) (opcode ext : Nat) : Bool :=
  let eight := c.endTxn.host.eightD
  (opcode == 0xEE || opcode == 0xDE || opcode == (if eight then 0xE9 else 0xE8)) && (!eight || opcode + ext == 255)

/-- XSPI_BAD_COMMAND: a command that is not bad after all is no event of this kind. -/
def execXspiBadCommand (opcode ext : Nat) (s : State) : Host.Outcome State Fault Refusal :=
  act (.xspiBadCommand opcode ext) (fun _ c => if c.commandGood opcode ext then c else c.badCommand) s

end Sys2Proof.Machine
end

