-- ==== Sys2Proof/Machine/I3c.lean ====
section
/-!
DEFINITION. Machine/I3c.lean: the I3C port with its I²C fallback (R531 to R534), the common command codes, the in-band
interrupt (R535, R536), and the end of a fetch on either port (R522).
-/
namespace Sys2Proof.Machine

/-! ### Private transfers (R531, R534) -/

/-- The port takes transfers: the ports answer, and no HDR traffic is under way (R519, R533). -/
def Chip.i3cUp (c : Chip) : Bool := c.dev.portsAnswer && !c.host.inHdr

/-- A dynamic address is assigned. -/
def Chip.i3cAddressed (c : Chip) : Bool := c.bit F.I3C_STATUS.DA_VALID

/-- The dynamic address. -/
def Chip.dynamicAddress (c : Chip) : Option Nat := if c.i3cAddressed then some (c.fld F.I3C_STATUS.DA) else none

/-- The static address that the strap selects (R54, R531). -/
def Chip.staticAddress (c : Chip) : Nat := 0x36 + c.fld F.STRAPS.ADDR_SEL

/-- The port NACKs. -/
def Chip.i3cNack (c : Chip) : Chip := c.setHost fun h => { h with outI := [], nack := true }

/-- Four address bytes, most significant first, set the read pointer and start a fetch; with data bytes after them they say
where the data goes. -/
def Chip.privateWrite (c : Chip) (fz : Fuses) (bs : List Byte) : Chip :=
  if bs.length < 4 then c
  else
    let a := beNat (bs.take 4)
    let c := c.setHost fun h => { h with nack := false }
    if bs.length = 4 then
      let c := c.setHost fun h => { h with pointer := a }
      if inGlance a then c.dropFetch .i3c else c.readStarts .i3c a
    else c.bytesArrive fz false a (bs.drop 4)

/-- I3C_PRIVATE_WRITE: an address and the bytes. A transfer at another address is not for this target, which does not acknowledge it. -/
def Chip.i3cPrivateWrite (c : Chip) (fz : Fuses) (addr : Nat) (bs : List Byte) : Chip :=
  if !c.i3cUp then c else if c.dynamicAddress = some addr then c.privateWrite fz bs else c.i3cNack

/-- I3C_PRIVATE_WRITE. -/
def execI3cPrivateWrite (xfer : Nat × List Byte) (s : State) : Host.Outcome State Fault Refusal :=
  act (.i3cPrivateWrite xfer) (fun fz c => c.i3cPrivateWrite fz xfer.1 xfer.2) s

/-- The read pointer passes a block's end, and the fetch of the next block starts (R534). -/
def Chip.pointerOn (c : Chip) (n : Nat) : Chip :=
  let c := c.setHost fun h => { h with pointer := (h.pointer + n) % 0x100000000 }
  if inGlance c.host.pointer then c else c.readStarts .i3c c.host.pointer

/-- Up to `count` bytes at the pointer, to the end of the 64-byte block; none while they are not there. A read to the block's
end moves the pointer on. -/
def Chip.pointerRead (c : Chip) (count : Nat) : Option (List Byte) × Chip :=
  let a := c.host.pointer
  let n := min count (64 - a % 64)
  if inGlance a then
    let (bs, c) := c.glanceBytes (a - 0x20000) n
    (some bs, if n = 64 - a % 64 then c.pointerOn n else c)
  else
    let c := c.readStarts .i3c a
    match c.host.fetchI.bind fun f : Fetch => f.held with
    | none => (none, c)
    | some bs =>
      let c := c.markReturned .i3c
      (some (bs.take n), if n = 64 - a % 64 then c.pointerOn n else c)

/-- I3C_PRIVATE_READ: an address and the bytes clocked. The header is NACKed while the fetch is not complete. -/
def Chip.i3cPrivateRead (c : Chip) (addr count : Nat) : Chip :=
  if !c.i3cUp then c
  else if c.dynamicAddress = some addr then
    let (r, c) := c.pointerRead count
    match r with
    | some bs => c.answer .i3c bs
    | none => c.i3cNack
  else c.i3cNack

/-- I3C_PRIVATE_READ. -/
def execI3cPrivateRead (xfer : Nat × Nat) (s : State) : Host.Outcome State Fault Refusal :=
  act (.i3cPrivateRead xfer) (fun _ c => c.i3cPrivateRead xfer.1 xfer.2) s

/-! ### I²C (R531, R534) -/

/-- Serve an I²C read of `count` more bytes as far as bytes are there; then SCL is stretched. -/
def Chip.i2cServe : Nat → Nat → Chip → Chip
  | 0, _, c => c
  | _ + 1, 0, c => c.setHost fun h => { h with stretch := none }
  | f + 1, n + 1, c =>
    let (r, c) := c.pointerRead (n + 1)
    match r with
    | none => c.setHost fun h => { h with stretch := some (n + 1) }
    | some bs =>
      Chip.i2cServe f (n + 1 - bs.length) (c.setHost fun h => { h with outI := h.outI ++ bs })

/-- I2C_TRANSFER: an address, a write part, then a read part; answered at the static address, while no dynamic address is assigned. -/
def Chip.i2cTransfer (c : Chip) (fz : Fuses) (addr : Nat) (bs : List Byte) (count : Nat) : Chip :=
  if !c.i3cUp then c
  else if c.i3cAddressed ∨ addr ≠ c.staticAddress then c.i3cNack
  else
    let c := (c.setHost fun h => { h with stretch := none }).answer .i3c []
    Chip.i2cServe (count + 1) count (c.privateWrite fz bs)

/-- I2C_TRANSFER. -/
def execI2cTransfer (write : Nat × List Byte) (count : Nat) (s : State) : Host.Outcome State Fault Refusal :=
  act (.i2cTransfer write count) (fun fz c => c.i2cTransfer fz write.1 write.2 count) s

/-- STRETCH_TIMEOUT: SCL is released, and the controller gets 0xFF for the rest of the block. The fetch goes on, and the pointer
stays for a read that starts again, unless the controller clocks beyond the block. -/
def Chip.stretchTimeout (c : Chip) : Chip :=
  match c.host.stretch with
  | none => c
  | some n =>
    let left := 64 - c.host.pointer % 64
    let sent := min n left
    let c := c.raise F.HIF_EVENTS.STRETCH_TIMEOUT
    let c := c.setHost fun h => { h with outI := h.outI ++ List.replicate sent 0xFF }
    if n ≤ left then c.setHost fun h => { h with stretch := none }
    else Chip.i2cServe (n + 1) (n - left) (c.pointerOn left)

/-- STRETCH_TIMEOUT. -/
def execStretchTimeout (s : State) : Host.Outcome State Fault Refusal :=
  act .stretchTimeout (fun _ c => c.stretchTimeout) s

/-! ### Fetches end (R522) -/

/-- What waits for a fetch goes on with it: a READ still in its latency, or an I²C read that stretches SCL. -/
def Chip.fetchServes (c : Chip) (p : Port) (a : Nat) : Chip :=
  match p with
  | .xspi =>
    match c.host.txn with
    | some (.read b count) => if a = b then c.readAnswer count else c
    | _ => c
  | .i3c =>
    match c.host.stretch with
    | some n => Chip.i2cServe (n + 1) n c
    | none => c

/-- FETCH_COMPLETE: once the writes before it are acknowledged, a fetch brings its block, and the block is held. -/
def Chip.fetchComplete (c : Chip) (p : Port) : Chip :=
  match c.fetchOf p with
  | none => c
  | some f =>
    if f.held.isSome || f.behind != 0 || !c.dev.portsAnswer then c
    else
      let (bs, c) := c.fetchBytes p f.addr
      (c.setFetch p (some { f with held := some bs })).fetchServes p f.addr

/-- FETCH_COMPLETE. -/
def execFetchComplete (p : Port) (s : State) : Host.Outcome State Fault Refusal :=
  act (.fetchComplete p) (fun _ c => c.fetchComplete p) s

/-- FETCH_EXPIRE: a block is held for 1 000 µs at most. -/
def Chip.fetchExpire (c : Chip) (p : Port) : Chip :=
  if (c.fetchOf p).any fun f : Fetch => f.held.isSome then c.setFetch p none else c

/-- FETCH_EXPIRE. -/
def execFetchExpire (p : Port) (s : State) : Host.Outcome State Fault Refusal :=
  act (.fetchExpire p) (fun _ c => c.fetchExpire p) s

/-! ### Common command codes (R532, R533) -/

/-- A CCC that reaches the target. -/
def Chip.ccc (c : Chip) (f : Chip → Chip) : Chip := if c.i3cUp then f c else c

/-- A direct CCC: it reaches the target at its dynamic address only. -/
def Chip.directCcc (c : Chip) (f : Chip → Chip) : Chip := c.ccc fun c => if c.i3cAddressed then f c else c.i3cNack

/-- A dynamic address is assigned. -/
def Chip.assign (c : Chip) (da : Nat) : Chip := (c.set F.I3C_STATUS.DA da).raise F.I3C_STATUS.DA_VALID

/-- The dynamic address is cleared. -/
def Chip.unassign (c : Chip) : Chip := (c.set F.I3C_STATUS.DA 0).setBit F.I3C_STATUS.DA_VALID false

/-- ENEC: bit 0 enables target interrupts. -/
def execEnec (bits : Nat) (s : State) : Host.Outcome State Fault Refusal :=
  act (.enec bits) (fun _ c => c.ccc fun c => if bits.testBit 0 then c.raise F.I3C_STATUS.IBI_EN else c) s

/-- DISEC: bit 0 disables target interrupts. -/
def execDisec (bits : Nat) (s : State) : Host.Outcome State Fault Refusal :=
  act (.disec bits) (fun _ c => c.ccc fun c => if bits.testBit 0 then c.setBit F.I3C_STATUS.IBI_EN false else c) s

/-- RSTDAA. -/
def execRstdaa (s : State) : Host.Outcome State Fault Refusal := act .rstdaa (fun _ c => c.ccc Chip.unassign) s

/-- PID, most significant byte first, BCR and DCR (R532). -/
def Chip.identity (c : Chip) : List Byte := beBytes 6 c.pid ++ [0x06, 0x00]

/-- ENTDAA: a target without a dynamic address sends its identity and takes the address given. -/
def execEntdaa (da : Nat) (s : State) : Host.Outcome State Fault Refusal :=
  act (.entdaa da) (fun _ c => c.ccc fun c => if c.i3cAddressed then c else (c.assign da).answer .i3c c.identity) s

/-- SETDASA: the static address it names, and the dynamic address; accepted while no dynamic address is assigned (R531). -/
def Chip.setdasa (c : Chip) (static da : Nat) : Chip :=
  if c.i3cAddressed ∨ static ≠ c.staticAddress then c.i3cNack else (c.assign da).setHost fun h => { h with nack := false }

/-- SETDASA. -/
def execSetdasa (at_ : Nat × Nat) (s : State) : Host.Outcome State Fault Refusal :=
  act (.setdasa at_) (fun _ c => c.ccc fun c => c.setdasa at_.1 at_.2) s

/-- SETNEWDA. -/
def execSetnewda (da : Nat) (s : State) : Host.Outcome State Fault Refusal :=
  act (.setnewda da) (fun _ c => c.directCcc fun c => (c.assign da).setHost fun h => { h with nack := false }) s

/-- SETMWL: stored and reported only. -/
def execSetmwl (n : Nat) (s : State) : Host.Outcome State Fault Refusal :=
  act (.setmwl n) (fun _ c => c.ccc fun c => c.setHost fun h => { h with mwl := n % 65536 }) s

/-- SETMRL: stored and reported only. -/
def execSetmrl (n : Nat) (s : State) : Host.Outcome State Fault Refusal :=
  act (.setmrl n) (fun _ c => c.ccc fun c => c.setHost fun h => { h with mrl := n % 65536 }) s

/-- GETMWL. -/
def execGetmwl (s : State) : Host.Outcome State Fault Refusal :=
  act .getmwl (fun _ c => c.directCcc fun c => c.answer .i3c (beBytes 2 c.host.mwl)) s

/-- GETMRL: with the size of the interrupt's payload. -/
def execGetmrl (s : State) : Host.Outcome State Fault Refusal :=
  act .getmrl (fun _ c => c.directCcc fun c => c.answer .i3c (beBytes 2 c.host.mrl ++ [5])) s

/-- GETPID. -/
def execGetpid (s : State) : Host.Outcome State Fault Refusal :=
  act .getpid (fun _ c => c.directCcc fun c => c.answer .i3c (beBytes 6 c.pid)) s

/-- GETBCR. -/
def execGetbcr (s : State) : Host.Outcome State Fault Refusal :=
  act .getbcr (fun _ c => c.directCcc fun c => c.answer .i3c [0x06]) s

/-- GETDCR. -/
def execGetdcr (s : State) : Host.Outcome State Fault Refusal :=
  act .getdcr (fun _ c => c.directCcc fun c => c.answer .i3c [0x00]) s

/-- GETSTATUS: bits [7:6] hold 0b01 while nFAULT is low. -/
def execGetstatus (s : State) : Host.Outcome State Fault Refusal :=
  act .getstatus (fun _ c => c.directCcc fun c => c.answer .i3c (beBytes 2 (if c.nfaultLow then 0x40 else 0))) s

/-- ENTHDR. -/
def execEnthdr (s : State) : Host.Outcome State Fault Refusal :=
  act .enthdr (fun _ c => c.ccc fun c => c.setHost fun h => { h with inHdr := true }) s

/-- HDR_EXIT_PATTERN. -/
def execHdrExitPattern (s : State) : Host.Outcome State Fault Refusal :=
  act .hdrExitPattern (fun _ c => c.setHost fun h => { h with inHdr := false }) s

/-- The target logic is reset: the dynamic address is cleared, and the event enables return to enabled. -/
def Chip.targetReset (c : Chip) : Chip :=
  if c.dev.portsAnswer then (c.unassign.raise F.I3C_STATUS.IBI_EN).setHost fun h => { h with inHdr := false } else c

/-- TARGET_RESET. -/
def execTargetReset (s : State) : Host.Outcome State Fault Refusal := act .targetReset (fun _ c => c.targetReset) s

/-- UNSUPPORTED_CCC: NACKed. -/
def execUnsupportedCcc (code : Nat) (s : State) : Host.Outcome State Fault Refusal :=
  act (.unsupportedCcc code) (fun _ c => c.ccc Chip.i3cNack) s

/-! ### In-band interrupts (R535, R536) -/

/-- The lowest-numbered bit set. -/
def lowestBit (w : Word) : Nat := ((List.range 32).find? w.toNat.testBit).getD 0

/-- The payload of R536. -/
def Chip.ibiPayload (c : Chip) : List Byte := Byte.of (lowestBit c.irqRequested) :: leBytes 4 c.irqStatusWord.toNat

/-- A due request is delivered (R535): the port is up, a dynamic address and the controller's enable stand, the AND is not 0, and the
controller acknowledges it; else it is tried again. -/
def State.ibiDelivers (s : State) (acked : Bool) : Bool :=
  s.irqDue && s.chip.i3cUp && s.chip.i3cAddressed && s.chip.bit F.I3C_STATUS.IBI_EN && s.chip.irqRequested != 0 && acked

/-- IBI_REQUEST: one delivered interrupt covers every change before it. -/
def execIbiRequest (acked : Bool) (s : State) : Host.Outcome State Fault Refusal :=
  if s.ibiDelivers acked then .next { s with chip := s.chip.answer .i3c s.chip.ibiPayload, irqDue := false }
  else act (.ibiRequest acked) (fun _ c => c) s

end Sys2Proof.Machine
end

