-- ==== Sys2Proof/Machine/Dispatch.lean ====
section
/-!
DEFINITION. Machine/Dispatch.lean: one arm per command; each calls the command's own meaning.
-/
namespace Sys2Proof.Machine

def exec (i : Instr) (s : State) : Host.Outcome State Fault Refusal :=
  match i with
  | .vddaLoss => Sys2Proof.Machine.execVddaLoss s
  | .aonStart => Sys2Proof.Machine.execAonStart s
  | .powerGood => Sys2Proof.Machine.execPowerGood s
  | .nresetLow widthNs => Sys2Proof.Machine.execNresetLow widthNs s
  | .railFall rail => Sys2Proof.Machine.execRailFall rail s
  | .exitResetHold straps => Sys2Proof.Machine.execExitResetHold straps s
  | .xclkCount count => Sys2Proof.Machine.execXclkCount count s
  | .otpSenseDone => Sys2Proof.Machine.execOtpSenseDone s
  | .pllLockTimeout => Sys2Proof.Machine.execPllLockTimeout s
  | .secChangeover => Sys2Proof.Machine.execSecChangeover s
  | .senseEnd => Sys2Proof.Machine.execSenseEnd s
  | .fillComplete outcome => Sys2Proof.Machine.execFillComplete outcome s
  | .selftestComplete outcome => Sys2Proof.Machine.execSelftestComplete outcome s
  | .loadEnd => Sys2Proof.Machine.execLoadEnd s
  | .pllUnlock pll => Sys2Proof.Machine.execPllUnlock pll s
  | .softReset key => Sys2Proof.Machine.execSoftReset key s
  | .go key => Sys2Proof.Machine.execGo key s
  | .stop key => Sys2Proof.Machine.execStop key s
  | .reload key => Sys2Proof.Machine.execReload key s
  | .drainEnd => Sys2Proof.Machine.execDrainEnd s
  | .tickEdge vddlMv => Sys2Proof.Machine.execTickEdge vddlMv s
  | .slotStart slot => Sys2Proof.Machine.execSlotStart slot s
  | .fsyncOutEnd => Sys2Proof.Machine.execFsyncOutEnd s
  | .unitStart entry => Sys2Proof.Machine.execUnitStart entry s
  | .passStart lane => Sys2Proof.Machine.execPassStart lane s
  | .unitEnd lane cycles => Sys2Proof.Machine.execUnitEnd lane cycles s
  | .windowOverrun entry => Sys2Proof.Machine.execWindowOverrun entry s
  | .fsyncEdge highNs atPs => Sys2Proof.Machine.execFsyncEdge highNs atPs s
  | .windowMissed => Sys2Proof.Machine.execWindowMissed s
  | .fsyncAbsent => Sys2Proof.Machine.execFsyncAbsent s
  | .slaveLost => Sys2Proof.Machine.execSlaveLost s
  | .trigEdge high => Sys2Proof.Machine.execTrigEdge high s
  | .exposureEdge edge row => Sys2Proof.Machine.execExposureEdge edge row s
  | .strobeCut => Sys2Proof.Machine.execStrobeCut s
  | .rowTimeStart k raws => Sys2Proof.Machine.execRowTimeStart k raws s
  | .rotationBoundary refs => Sys2Proof.Machine.execRotationBoundary refs s
  | .sampleArrival => Sys2Proof.Machine.execSampleArrival s
  | .srvGo => Sys2Proof.Machine.execSrvGo s
  | .surveyResult conversions => Sys2Proof.Machine.execSurveyResult conversions s
  | .surveyBusyEnd => Sys2Proof.Machine.execSurveyBusyEnd s
  | .srvFlush => Sys2Proof.Machine.execSrvFlush s
  | .srvClrCounts => Sys2Proof.Machine.execSrvClrCounts s
  | .srvFifoDataRead => Sys2Proof.Machine.execSrvFifoDataRead s
  | .waveReplay vale wave => Sys2Proof.Machine.execWaveReplay vale wave s
  | .replayStorm vale => Sys2Proof.Machine.execReplayStorm vale s
  | .replayStuck vale => Sys2Proof.Machine.execReplayStuck vale s
  | .voltageEvaluation => Sys2Proof.Machine.execVoltageEvaluation s
  | .copy mover => Sys2Proof.Machine.execCopy mover s
  | .moverFill mover => Sys2Proof.Machine.execMoverFill mover s
  | .gather mover => Sys2Proof.Machine.execGather mover s
  | .route mover => Sys2Proof.Machine.execRoute mover s
  | .combine mover => Sys2Proof.Machine.execCombine mover s
  | .place mover => Sys2Proof.Machine.execPlace mover s
  | .placementDecision layer => Sys2Proof.Machine.execPlacementDecision layer s
  | .placementSwitch layer => Sys2Proof.Machine.execPlacementSwitch layer s
  | .rdReq node vc tag mem offset length upsets => Sys2Proof.Machine.execRdReq node vc tag mem offset length upsets s
  | .wrReq node vc tag mem offset bytes => Sys2Proof.Machine.execWrReq node vc tag mem offset bytes s
  | .rdData route => Sys2Proof.Machine.execRdData route s
  | .wrAck route => Sys2Proof.Machine.execWrAck route s
  | .qPush node vc tag queue element => Sys2Proof.Machine.execQPush node vc tag queue element s
  | .qPop node vc tag queue => Sys2Proof.Machine.execQPop node vc tag queue s
  | .qReply route => Sys2Proof.Machine.execQReply route s
  | .reg => Sys2Proof.Machine.execReg s
  | .regReply => Sys2Proof.Machine.execRegReply s
  | .resetAbort route => Sys2Proof.Machine.execResetAbort route s
  | .pushRetry lane => Sys2Proof.Machine.execPushRetry lane s
  | .ceWriteBack => Sys2Proof.Machine.execCeWriteBack s
  | .dieThreshold dies => Sys2Proof.Machine.execDieThreshold dies s
  | .channelLoss dies => Sys2Proof.Machine.execChannelLoss dies s
  | .eccDeclare key die => Sys2Proof.Machine.execEccDeclare key die s
  | .eccWindowEnd => Sys2Proof.Machine.execEccWindowEnd s
  | .scrubPlainVisit upsets => Sys2Proof.Machine.execScrubPlainVisit upsets s
  | .scrubBasinVisit upsets => Sys2Proof.Machine.execScrubBasinVisit upsets s
  | .scrubWriteBack => Sys2Proof.Machine.execScrubWriteBack s
  | .scrubGo mem => Sys2Proof.Machine.execScrubGo mem s
  | .scrubTVisit upsets => Sys2Proof.Machine.execScrubTVisit upsets s
  | .scrubAbort => Sys2Proof.Machine.execScrubAbort s
  | .intervalEnd => Sys2Proof.Machine.execIntervalEnd s
  | .resume queue => Sys2Proof.Machine.execResume queue s
  | .flush queue => Sys2Proof.Machine.execFlush queue s
  | .qhPush queue => Sys2Proof.Machine.execQhPush queue s
  | .qhPop queue => Sys2Proof.Machine.execQhPop queue s
  | .qSelWrite queue => Sys2Proof.Machine.execQSelWrite queue s
  | .loopApply => Sys2Proof.Machine.execLoopApply s
  | .vcmEnable => Sys2Proof.Machine.execVcmEnable s
  | .vcmDisable => Sys2Proof.Machine.execVcmDisable s
  | .vcmRange coarse => Sys2Proof.Machine.execVcmRange coarse s
  | .vcmTargetWrite ua => Sys2Proof.Machine.execVcmTargetWrite ua s
  | .vcmUpdate => Sys2Proof.Machine.execVcmUpdate s
  | .handoverEnd => Sys2Proof.Machine.execHandoverEnd s
  | .vcmTrack => Sys2Proof.Machine.execVcmTrack s
  | .vcmOvercurrent => Sys2Proof.Machine.execVcmOvercurrent s
  | .vddvcmLow => Sys2Proof.Machine.execVddvcmLow s
  | .vcmRampEnd => Sys2Proof.Machine.execVcmRampEnd s
  | .lensCalProg key => Sys2Proof.Machine.execLensCalProg key s
  | .otpPulse vppMv reads margin => Sys2Proof.Machine.execOtpPulse vppMv reads margin s
  | .privSample a b => Sys2Proof.Machine.execPrivSample a b s
  | .privClear key => Sys2Proof.Machine.execPrivClear key s
  | .privCfgWrite discTime => Sys2Proof.Machine.execPrivCfgWrite discTime s
  | .read addr count => Sys2Proof.Machine.execRead addr count s
  | .write addr bytes => Sys2Proof.Machine.execWrite addr bytes s
  | .enter8d => Sys2Proof.Machine.execEnter8d s
  | .exit8d => Sys2Proof.Machine.execExit8d s
  | .xspiBadCommand opcode extension => Sys2Proof.Machine.execXspiBadCommand opcode extension s
  | .xspiCsRise => Sys2Proof.Machine.execXspiCsRise s
  | .fetchComplete port => Sys2Proof.Machine.execFetchComplete port s
  | .fetchExpire port => Sys2Proof.Machine.execFetchExpire port s
  | .i3cPrivateWrite bytes => Sys2Proof.Machine.execI3cPrivateWrite bytes s
  | .i3cPrivateRead count => Sys2Proof.Machine.execI3cPrivateRead count s
  | .i2cTransfer bytes count => Sys2Proof.Machine.execI2cTransfer bytes count s
  | .stretchTimeout => Sys2Proof.Machine.execStretchTimeout s
  | .enec bits => Sys2Proof.Machine.execEnec bits s
  | .disec bits => Sys2Proof.Machine.execDisec bits s
  | .rstdaa => Sys2Proof.Machine.execRstdaa s
  | .entdaa da => Sys2Proof.Machine.execEntdaa da s
  | .setdasa da => Sys2Proof.Machine.execSetdasa da s
  | .setnewda da => Sys2Proof.Machine.execSetnewda da s
  | .setmwl n => Sys2Proof.Machine.execSetmwl n s
  | .setmrl n => Sys2Proof.Machine.execSetmrl n s
  | .getmwl => Sys2Proof.Machine.execGetmwl s
  | .getmrl => Sys2Proof.Machine.execGetmrl s
  | .getpid => Sys2Proof.Machine.execGetpid s
  | .getbcr => Sys2Proof.Machine.execGetbcr s
  | .getdcr => Sys2Proof.Machine.execGetdcr s
  | .getstatus => Sys2Proof.Machine.execGetstatus s
  | .enthdr => Sys2Proof.Machine.execEnthdr s
  | .targetReset => Sys2Proof.Machine.execTargetReset s
  | .unsupportedCcc code => Sys2Proof.Machine.execUnsupportedCcc code s
  | .ibiRequest acked => Sys2Proof.Machine.execIbiRequest acked s
  | .csiStart => Sys2Proof.Machine.execCsiStart s
  | .csiStop => Sys2Proof.Machine.execCsiStop s
  | .pllCLockTimeout => Sys2Proof.Machine.execPllCLockTimeout s
  | .csiDeskewDone => Sys2Proof.Machine.execCsiDeskewDone s
  | .csiPacket => Sys2Proof.Machine.execCsiPacket s
  | .setNow => Sys2Proof.Machine.execSetNow s
  | .arm => Sys2Proof.Machine.execArm s
  | .disarm => Sys2Proof.Machine.execDisarm s
  | .timeLoRead port => Sys2Proof.Machine.execTimeLoRead port s
  | .start => Sys2Proof.Machine.execStart s
  | .abort => Sys2Proof.Machine.execAbort s
  | .pushByte b => Sys2Proof.Machine.execPushByte b s
  | .pushTimeout => Sys2Proof.Machine.execPushTimeout s
  | .flashReadDone bytes => Sys2Proof.Machine.execFlashReadDone bytes s
  | .verifyDone => Sys2Proof.Machine.execVerifyDone s
  | .admitDone => Sys2Proof.Machine.execAdmitDone s
  | .loadFillDone => Sys2Proof.Machine.execLoadFillDone s
  | .loadCleanupDone => Sys2Proof.Machine.execLoadCleanupDone s
  | .hotSwap => Sys2Proof.Machine.execHotSwap s
  | .lcCtrl key target => Sys2Proof.Machine.execLcCtrl key target s
  | .program key region enc => Sys2Proof.Machine.execProgram key region enc s
  | .lockWrite key region => Sys2Proof.Machine.execLockWrite key region s
  | .lockRead key region => Sys2Proof.Machine.execLockRead key region s
  | .rollbackAdvance key region => Sys2Proof.Machine.execRollbackAdvance key region s
  | .ceilingLower key region => Sys2Proof.Machine.execCeilingLower key region s
  | .marginScan key region => Sys2Proof.Machine.execMarginScan key region s
  | .marginScanDone leaky => Sys2Proof.Machine.execMarginScanDone leaky s
  | .reburn key region => Sys2Proof.Machine.execReburn key region s
  | .otpAbort key => Sys2Proof.Machine.execOtpAbort key s
  | .fence key vale => Sys2Proof.Machine.execFence key vale s
  | .moverReset key mover => Sys2Proof.Machine.execMoverReset key mover s
  | .moverReturn mover => Sys2Proof.Machine.execMoverReturn mover s
  | .fltActiveClear bits recording => Sys2Proof.Machine.execFltActiveClear bits recording s
  | .fltStopClr => Sys2Proof.Machine.execFltStopClr s
  | .fltFirstClr => Sys2Proof.Machine.execFltFirstClr s
  | .overrunLogClr => Sys2Proof.Machine.execOverrunLogClr s
  | .rtClrCounts => Sys2Proof.Machine.execRtClrCounts s
  | .clrPeak lane => Sys2Proof.Machine.execClrPeak lane s
  | .terSelWrite group slice => Sys2Proof.Machine.execTerSelWrite group slice s
  | .reqMhzWrite vale mhz => Sys2Proof.Machine.execReqMhzWrite vale mhz s
  | .supplySample mv => Sys2Proof.Machine.execSupplySample mv s
  | .supplyConditionEnd bit => Sys2Proof.Machine.execSupplyConditionEnd bit s
  | .hostBasinWrite offset bytes => Sys2Proof.Machine.execHostBasinWrite offset bytes s
  | .hostPlainWrite offset bytes => Sys2Proof.Machine.execHostPlainWrite offset bytes s
  | .hostWindowRead addr count => Sys2Proof.Machine.execHostWindowRead addr count s
  | .registerWrite addr value => Sys2Proof.Machine.execRegisterWrite addr value s
  | .hdrExitPattern => Sys2Proof.Machine.execHdrExitPattern s
  | .islandAtSafeMv vale => Sys2Proof.Machine.execIslandAtSafeMv vale s

end Sys2Proof.Machine
end

