-- ==== Sys2Proof/Machine/Step.lean ====
section
/-!
DEFINITION. Machine/Step.lean: one step of the block: the command at the front of the queue; on an empty queue the block
idles for one nanosecond.
-/
namespace Sys2Proof.Machine

/-- Time passes with nothing to do (R544): the timebase runs from FILL onward (log entry 2). -/
def Chip.idle (c : Chip) : Chip :=
  { c with now := c.now + 1, timebase := if c.dev.portsAnswer then (c.timebase + 1) % 2 ^ 64 else c.timebase }

/-- One step: take the command at the front of the queue and run it; idle on an empty queue. -/
def step (s : State) : Host.Outcome State Fault Refusal :=
  match s.pending with
  | [] => .next { s with chip := s.chip.idle }
  | i :: rest => exec i { s with pending := rest }

/-- The command that a table word spells, put at the front of the queue; no row of the table gives bits. -/
def State.withFetchWord (s : State) (nbits w : Nat) : State :=
  match decodeTableWord nbits w with
  | some i => { s with pending := i :: s.pending }
  | none => s

end Sys2Proof.Machine
end

