-- ==== Sys2Proof/Machine/Pads.lean ====
section
/-!
DEFINITION. Machine/Pads.lean: the state of every signal ball (R44 to R50, R62), read off the chip; no command needs it.
-/
namespace Sys2Proof.Machine

/-- The signal balls of R45; the two balls of a D-PHY pair, and those of one VCM net, are one entry. -/
inductive Ball where
  | csiData (lane : Nat) | csiClock
  | xspiCsN | xspiCk | xspiDs | xspiIo (bit : Nat)
  | i3cScl | i3cSda
  | addrSel | bootSrc | tmode
  | nfault | nreset | xclk
  | fsyncIn | trig | fsyncOut | strobe
  | privA | privB
  | vcmP | vcmN
  | ain (input : Nat) | iref | vrefDec | tmon
  | bfCsN | bfSck | bfIo (bit : Nat)
  | dnu
  deriving DecidableEq, Repr

/-- What a ball is at. -/
inductive PadState where
  /-- High-impedance, with only its pull active. -/
  | z
  | low | high
  | lp11
  /-- High-speed CSI-2 traffic. -/
  | csi2
  /-- Driven with data. -/
  | data
  /-- Driven in the command and address phases of the read in progress, Z in the others. -/
  | phases
  | toggling
  /-- An input that the device ignores, acts on, or samples; a strap is sampled at the exit from RESET_HOLD. -/
  | ignored | active | sampled | strap
  | charging
  /-- The bridge drives the coil current. -/
  | current
  /-- Not driven above VSS + 0.3 V (R44). -/
  | unpowered
  deriving DecidableEq, Repr

/-- The columns of R45, and the time before the always-on island starts (R46). FAULT_STOP takes the HOLD column (R49). -/
inductive PadColumn where
  | off | reset | startUp | hold | run
  deriving DecidableEq, Repr

/-- The column of a device state. -/
def DevState.column : DevState → PadColumn
  | .off => .off
  | .resetHold | .sense => .reset
  | .fill | .selftest | .load => .startUp
  | .hold | .faultStop => .hold
  | .run | .degraded => .run

/-- A lane's state while it has nothing of its own to show: Z in reset, LP-11 from start-up on. -/
def PadColumn.lane : PadColumn → PadState
  | .off | .reset => .z
  | _ => .lp11

/-- A port input: ignored in reset. -/
def PadColumn.port : PadColumn → PadState
  | .off => .z
  | .reset => .ignored
  | _ => .active

/-- An input of operation: acted on in RUN and DEGRADED only. -/
def PadColumn.operating : PadColumn → PadState
  | .off => .z
  | .run => .active
  | _ => .ignored

/-- A data lane (R45, R62): while outputs run, a lane in use carries packets, in LP-11 where none is ready (R542); a lane beyond a lane
count that has taken effect is at Z until the next exit from RESET_HOLD, unless a later start uses it (log entry 117). -/
def Chip.dataLane (c : Chip) (k : Nat) : PadState :=
  let used := c.fld F.CSI_STATUS.STATE != 0 && decide (k < c.fld F.CSI_STATUS.LANES)
  if c.dev.column.lane = .z ∨ (used = false ∧ c.host.laneFloor ≤ k) then .z
  else if used = true ∧ c.fld F.CSI_STATUS.STATE = 2 ∧ c.host.csi ≠ [] then .csi2
  else .lp11

/-- The clock lane: with CLK_CONT at 0 it leaves HS between bursts (R542). -/
def Chip.clockLane (c : Chip) : PadState :=
  if c.dev.column.lane ≠ .z ∧ c.fld F.CSI_STATUS.STATE = 2 ∧ (c.host.clkCont = true ∨ c.host.csi ≠ []) then .csi2
  else c.dev.column.lane

/-- The xSPI port returns data: a READ in its answer. -/
def Chip.readPhase (c : Chip) : Bool := match c.host.txn with | some .glance => true | some (.read _ _) => true | _ => false

/-- A ball by R45 to R50, while VDDIO holds. -/
def Chip.ballState (c : Chip) (b : Ball) : PadState :=
  let col := c.dev.column
  match b with
  | .csiData k => c.dataLane k
  | .csiClock => c.clockLane
  | .xspiCsN | .xspiCk => col.port
  | .xspiDs =>
    if col = .off ∨ col = .reset then .z
    else if c.readPhase then .data
    else if c.host.eightD && c.host.txn.isSome then .low else .z
  | .xspiIo k =>
    if col = .off ∨ col = .reset then .z
    else if c.readPhase && (c.host.eightD || k == 1) then .data else .z
  | .i3cScl => if c.host.stretch.isSome && col.port == .active then .low else col.port
  | .i3cSda => if col.port = .active then .active else .z
  | .addrSel | .bootSrc | .tmode => match col with | .off => .z | .reset => .strap | _ => .ignored
  | .nfault => if c.nfaultLow then .low else .z
  | .nreset | .xclk => if col = .off then .z else .active
  | .fsyncIn | .trig => col.operating
  | .fsyncOut => match col with | .off => .z | .run => if c.sched.fsyncOut then .high else .low | _ => .low
  | .strobe => match col with | .off => .z | .run => if c.pixel.strobe then .high else .low | _ => .low
  | .privA | .privB => if col = .off then .z else .sampled
  | .vcmP | .vcmN => if c.loop.vcm.bridge = .z then .z else .current
  | .ain k =>
    let mask := c.fld F.SRV_MASK.MASK
    let wanted := mask.testBit k || (k % 2 == 1 && mask.testBit (k - 1) && (c.fld F.SRV_AIN_CFG.DIFF).testBit (k / 2))
    if (col = .hold ∨ col = .run) ∧ wanted = true then .sampled else .ignored
  | .iref => if col = .off ∨ c.dev = .resetHold then .z else .active
  | .vrefDec => if col = .off ∨ c.dev = .resetHold then .z else if col = .reset then .charging else .active
  | .tmon | .dnu => .z
  | .bfCsN => if col = .off ∨ col = .reset then .z else if c.flashRequest.isSome then .low else .high
  | .bfSck => if col = .off ∨ col = .reset then .z else if c.flashRequest.isSome then .toggling else .low
  | .bfIo _ => if col ≠ .off ∧ col ≠ .reset ∧ c.flashRequest.isSome = true then .phases else .z

/-- A fail-safe pad (R43), or one that VDDIO does not supply: analog balls, and the bridge, which VDDVCM drives (R51). -/
def Ball.standsAlone : Ball → Bool
  | .i3cScl | .i3cSda | .nfault | .nreset | .vcmP | .vcmN | .ain _ | .iref | .vrefDec | .tmon => true
  | _ => false

/-- A state in which a pad is driven above VSS + 0.3 V at some moment. -/
def PadState.drivesUp : PadState → Bool
  | .high | .lp11 | .csi2 | .data | .phases | .toggling => true
  | _ => false

/-- The state of a ball: below 1.71 V on VDDIO no pad but the fail-safe ones is driven up (R44). -/
def Chip.ball (c : Chip) (b : Ball) : PadState :=
  if (c.rail 2).mv < 1710 ∧ b.standsAlone = false ∧ (c.ballState b).drivesUp = true then .unpowered else c.ballState b

end Sys2Proof.Machine
end

