-- ==== Sys2Proof/Safety.lean ====
section
/-!
DEFINITION. Safety.lean: the terms that claims are stated in: a safe run, a command that completes, what a command leaves
unchanged, and the newest entry of the fault ring.
-/
namespace Sys2Proof

open Machine

/-- `n` steps from `s` all answer a next state. -/
def SafeFor (n : Nat) (s : State) : Prop := ∃ t, core.run n s = .next t

/-- Command `i` completes at `s`: `exec` answers a next state, with the queue and the fuses as they were, and a chip that
meets `post`. -/
def Completes (i : Instr) (s : State) (post : Chip → Prop) : Prop :=
  ∃ t, exec i s = .next t ∧ t.pending = s.pending ∧ t.fuses = s.fuses ∧ post t.chip

/-- Every register field that shares no bit with one of `fs` reads in `d` as in `c`. -/
def FieldsBut (fs : List Fld) (c d : Chip) : Prop :=
  ∀ f : Fld, (∀ g ∈ fs, g.apart f = true) → d.fld f = c.fld f

/-- The newest entry of the fault ring reports `code` of `unit` (R609). -/
def Logged (code unit : Nat) (c : Chip) : Prop := ∃ e es, c.faults = e :: es ∧ e.code = code ∧ e.unit = unit

/-- The fields that recording a fault writes (R609, R611). -/
def logFields : List Fld := [F.FLT_LOG_HEAD.NEXT, F.FLT_FIRST.CODE, ⟨A.FLT_ACTIVE, 0, 32⟩]

/-- A read of `n` bytes at key `k` meets only clean codewords (R434, R435). -/
abbrev CleanAt (m : Mem) (k n : Nat) : Prop := ∀ i, i < n → (m.loadByte (k + i)).2 = .clean

/-- Bit `i` of a stored byte flips: data bits 0 to 7, then its five check bits. -/
def flipBit (i : Nat) (b : Byte × Byte) : Byte × Byte :=
  if i < 8 then (b.1 ^^^ Byte.of (2 ^ i), b.2) else (b.1, b.2 ^^^ Byte.of (2 ^ (i - 8)))

end Sys2Proof
end

