-- ==== Sys2Proof/Certificates/Slice0/Obligations.lean ====
section
/-!
DEFINITION. Obligations.lean: the statements for the provers.
-/
open Sys2Proof Sys2Proof.Machine

/-! ### The machine -/

/-- A step takes the command at the front of the queue: it is `exec` of that command with the queue's rest. -/
def Obligations.StepRunsFrontCommand : Prop :=
  ∀ (i : Instr) (s : State), step { s with pending := i :: s.pending } = exec i s

/-- With no command waiting, a step lets one nanosecond pass: the timebase counts from FILL onward, and nothing else changes. The model's
choice (log entry 2). -/
def Obligations.EmptyQueueLetsTimePass : Prop :=
  ∀ s : State, s.pending = [] →
    ∃ c, step s = .next { s with chip := c } ∧ c.now = s.chip.now + 1 ∧
      c.timebase = (if s.chip.dev.portsAnswer then (s.chip.timebase + 1) % 2 ^ 64 else s.chip.timebase) ∧
      c = { s.chip with now := c.now, timebase := c.timebase }

/-- Every command answers a next state with the queue as it was, and with the fuses as they were unless it is OTP_PULSE. A command
with an operand out of range changes nothing (the model's choice, log entry 11). No command ever stops the machine. -/
def Obligations.EveryCommandAnswersANextState : Prop :=
  ∀ (i : Instr) (s : State), ∃ t, exec i s = .next t ∧ t.pending = s.pending ∧
    ((∀ mv reads margin, i ≠ .otpPulse mv reads margin) → t.fuses = s.fuses) ∧ (i.wf = false → t = s)

/-- R578: no step of the machine ever returns a burned fuse to 0, and every step keeps the fuses' lists in their canonical form. -/
def Obligations.StepsKeepFusesBurnedAndInForm : Prop :=
  ∀ s t : State, step s = .next t →
    (∀ a, fuseAt s.fuses.burned a = true → fuseAt t.fuses.burned a = true) ∧ (s.fuses.wf = true → t.fuses.wf = true)

/-- R659: right after the exit from RESET_HOLD every register word reads its reset value, no command waits, the device is in SENSE, and
memory and fuses list nothing. -/
def Obligations.ResetLeavesTheResetValues : Prop :=
  State.reset.pending = [] ∧ State.reset.chip.dev = .sense ∧ (∀ a, State.reset.chip.word a = resetWord a) ∧
    State.reset.chip.mem = Mem.fresh ∧ State.reset.chip.mem.wf = true ∧ State.reset.fuses.wf = true

/-- R609, R611: a recording that repeats the newest entry's code, unit and severity in the same tick adds 1 to its REPEAT, saturating at
255, and makes no entry; any other makes a new entry under the next index, and the ring keeps the newest 32. An ALERT or FATAL recording
sets its group's bit of FLT_ACTIVE, and FLT_FIRST keeps the first code. -/
def Obligations.RecordingFoldsOrMakesAnEntry : Prop :=
  ∀ (c : Chip) (fatal : Bool) (code unit detail : Nat), code < 0x2000 →
    (∀ e es, c.faults = e :: es → e.code = code → e.unit = unit → e.severity = severityOf fatal code → e.stamp = c.stamp →
      (c.record fatal code unit detail).faults = { e with repeats := min 255 (e.repeats + 1) } :: es ∧
      (c.record fatal code unit detail).fld F.FLT_LOG_HEAD.NEXT = c.fld F.FLT_LOG_HEAD.NEXT) ∧
    ((∀ e es, c.faults = e :: es →
        ¬ (e.code = code ∧ e.unit = unit ∧ e.severity = severityOf fatal code ∧ e.stamp = c.stamp)) →
      (∃ e, (c.record fatal code unit detail).faults = (e :: c.faults).take 32 ∧ e.code = code ∧ e.unit = unit ∧
        e.detail = detail ∧ e.severity = severityOf fatal code ∧ e.repeats = 0 ∧ e.time = c.timebase ∧
        e.index = c.fld F.FLT_LOG_HEAD.NEXT) ∧
      (c.record fatal code unit detail).fld F.FLT_LOG_HEAD.NEXT = (c.fld F.FLT_LOG_HEAD.NEXT + 1) % 2 ^ 32) ∧
    (severityOf fatal code ≠ 0 →
      (c.record fatal code unit detail).fld ⟨A.FLT_ACTIVE, code / 256, 1⟩ = 1 ∧
      (c.record fatal code unit detail).fld F.FLT_FIRST.CODE =
        if c.fld F.FLT_FIRST.CODE = 0 then code else c.fld F.FLT_FIRST.CODE) ∧
    FieldsBut logFields c (c.record fatal code unit detail)

/-! ### Power, reset and start-up -/

/-- R115, R118, R119, R124: a low level on nRESET of 500 ns or more, an accepted SOFT_RESET and a required rail below its fall threshold
after power-good each take the device to RESET_HOLD from every state but OFF and RESET_HOLD. They abandon the units, the load and the
host transfers in progress, stop the CSI-2 outputs, and note their cause bits for the coming exit; memory and OTP stay. R118: a low
level on nRESET shorter than 100 ns never resets the device, one of 500 ns or longer always does, and one between the two leaves it
running or resets it (a free value). -/
def Obligations.ResetEventsEnterResetHold : Prop :=
  (∀ s : State, s.chip.dev ≠ .off → s.chip.dev ≠ .resetHold →
     (∀ w, 500 ≤ w → Completes (.nresetLow w) s fun c =>
       c.dev = .resetHold ∧
       c.aon = { s.chip.aon with causes := s.chip.aon.causes ||| (2 ||| if s.chip.dev = .faultStop then 8 else 0) } ∧
       c.sched.lanes = [] ∧ c.front = [] ∧ c.loader.load = none ∧ c.host.writes = [] ∧ c.host.fetchX = none ∧
       c.host.fetchI = none ∧ c.fld F.CSI_STATUS.STATE = 0 ∧ c.pixel.strobe = false ∧ c.mem = s.chip.mem ∧
       c.otp = s.chip.otp ∧ c.word A.FLT_STOP = s.chip.word A.FLT_STOP) ∧
     (s.chip.dev.portsAnswer = true → Completes (.softReset 0x6050) s fun c =>
       c.dev = .resetHold ∧ c.sched.lanes = [] ∧ c.loader.load = none ∧ c.mem = s.chip.mem ∧
       c.aon = { s.chip.aon with causes := s.chip.aon.causes ||| (4 ||| if s.chip.dev = .faultStop then 8 else 0) }) ∧
     (∀ r, r < 5 → s.chip.aon.powerGood = true → Completes (.railFall r) s fun c =>
       c.dev = .resetHold ∧ c.aon.powerGood = false ∧ c.aon.causes.testBit (4 + r) = true ∧ c.sched.lanes = [] ∧
       c.mem = s.chip.mem)) ∧
  (∀ (s : State) (w : Nat), s.chip.dev ≠ .off → s.chip.dev ≠ .resetHold →
     (w < 100 → Completes (.nresetLow w) s fun c => c = s.chip) ∧
     (500 ≤ w → Completes (.nresetLow w) s fun c => c.dev = .resetHold) ∧
     (100 ≤ w → w < 500 → Completes (.nresetLow w) s fun c =>
       c = { s.chip with draws := s.chip.draws + 1 } ∨ c.dev = .resetHold))

/-- R25, R115, R122, R126: loss of VDDA takes the device to OFF and discards the always-on island; the island's start takes it from OFF to
RESET_HOLD with POWER_ON as the coming cause and no memory, image or log left; power-good is noted unless the OTP latch is set. -/
def Obligations.PowerTakesTheDeviceOffAndOn : Prop :=
  ∀ s : State,
    (s.chip.dev ≠ .off → Completes .vddaLoss s fun c =>
      c.dev = .off ∧ c.aon = { otpLatch := false, powerGood := false, causes := 0 } ∧ c.sched.lanes = [] ∧
      c.loader.load = none) ∧
    (s.chip.dev = .off → Completes .aonStart s fun c =>
      c.dev = .resetHold ∧ c.aon = Aon.fresh ∧ c.aon.causes = 1 ∧ c.mem = Mem.fresh ∧ c.loader = Loader.fresh ∧
      c.faults = [] ∧ c.mosaic = s.chip.mosaic) ∧
    (s.chip.dev ≠ .off → s.chip.aon.otpLatch = false → Completes .powerGood s fun c =>
      c = { s.chip with aon := { s.chip.aon with powerGood := true } })

/-- R125, R54, R120, R659: with power-good and the OTP latch clear the device leaves RESET_HOLD for SENSE. Its straps are sampled,
RESET_CAUSE gains the causes noted, FLT_STOP and the privacy registers are kept, and every other register outside the lens driver's two
status words reads its reset value; memories, queues, loads and lanes start empty. -/
def Obligations.ExitFromResetHoldRestoresResetValues : Prop :=
  ∀ (s : State) (straps : Nat), straps < 8 → s.chip.dev = .resetHold → s.chip.aon.powerGood = true →
    s.chip.aon.otpLatch = false → Completes (.exitResetHold straps) s fun c =>
      c.dev = .sense ∧ c.word A.STRAPS = Word.of straps ∧
      c.word A.RESET_CAUSE = s.chip.word A.RESET_CAUSE ||| Word.of s.chip.aon.causes ∧ c.aon.causes = 0 ∧
      c.word A.FLT_STOP = s.chip.word A.FLT_STOP ∧ c.word A.PRIV_STATUS = s.chip.word A.PRIV_STATUS ∧
      c.word A.PRIV_CFG = s.chip.word A.PRIV_CFG ∧ c.word A.PRIV_EVENTS = s.chip.word A.PRIV_EVENTS ∧
      (∀ a, a ∉ [A.STRAPS, A.RESET_CAUSE, A.FLT_STOP, A.PRIV_STATUS, A.PRIV_CFG, A.PRIV_EVENTS, A.VCM_STATUS,
        A.VCM_TARGET_FORCE] → c.word a = resetWord a) ∧
      c.mem = Mem.fresh ∧ c.loader = Loader.fresh ∧ c.sched = Sched.fresh ∧ c.fabric = Fabric.fresh ∧ c.faults = [] ∧
      c.timebase = 0

/-- R74, R75: the count of XCLK over 32 AON periods identifies XCLK by the table, and correctly for every AON frequency (in mHz, the count
within 1 of the true quotient) within 5 % of 32.768 kHz; a valid count is the last, and after one that is not valid the device stays in
SENSE and counts again. -/
def Obligations.XclkCountIdentifiesXclk : Prop :=
  ∀ (s : State) (n : Nat), s.chip.dev = .sense → s.chip.startup.xclkValid = false → Completes (.xclkCount n) s fun c =>
    c.fld F.CLK_STATUS.XCLK_ID = (if n ≤ 16899 then 3 else if n ≤ 20999 then 0 else if n ≤ 24829 then 1
      else if n ≤ 28999 then 2 else 3) ∧
    c.startup = { s.chip.startup with xclkValid := decide (16900 ≤ n ∧ n ≤ 28999) } ∧
    c = { s.chip with regs := c.regs, startup := c.startup } ∧ FieldsBut [F.CLK_STATUS.XCLK_ID] s.chip c ∧
    (∀ aon xclk code, 31129600 ≤ aon → aon ≤ 34406400 → (xclk, code) ∈ [(19200000, 0), (24000000, 1), (27000000, 2)] →
      n * aon ≤ 32 * xclk * 1000 + aon → 32 * xclk * 1000 ≤ n * aon + aon → c.fld F.CLK_STATUS.XCLK_ID = code)

/-- R127, R129, R508, R588: when OTP sensing ends, the sensed fuses are those of the array, the lens calibration among them. With the
integrity check passed LIFECYCLE shows the fused state and the session opens; with it failed the OTP latch is set and the device is in
RESET_HOLD. -/
def Obligations.OtpSensingChecksTheArray : Prop :=
  ∀ s : State, s.chip.dev = .sense → s.chip.startup.xclkValid = true → s.chip.startup.otpChecked = false →
    (otpIntact s.fuses.burned = true → Completes .otpSenseDone s fun c =>
      c.dev = .sense ∧ c.otp.sensed = s.fuses.burned ∧ c.otp.lastRead = s.fuses.burned ∧ c.otp.loadRead = s.fuses.burned ∧
      c.otp.lensRead = s.fuses.burned ∧
      c.startup.otpChecked = true ∧
      c.fld F.LIFECYCLE.STATE = lifecycleCode s.fuses.burned % 8 ∧
      c.fld F.LIFECYCLE.PENDING = lifecycleCode s.fuses.burned % 8 ∧ c.fld F.SEAL_COUNTER.VALUE = 0 ∧
      c.aon.otpLatch = s.chip.aon.otpLatch) ∧
    (otpIntact s.fuses.burned = false → Completes .otpSenseDone s fun c => c.dev = .resetHold ∧ c.aon.otpLatch = true)

/-- R88, R130: in SENSE after a valid count the SEC domain changes over to PLL_F, and a PLL that has not locked in time makes all three
restart, with SEC waiting again and no fault recorded; nothing else changes. R115, R131, R132: the last condition of SENSE takes the
device to FILL with the three PLLs locked and the memories zeroed with correct check bits; a clean FILL with PLL_S and every PLL_V
locked takes it to SELFTEST, and a check-bit error to FAULT_STOP under code 0x0004. -/
def Obligations.StartUpPassesSenseAndFill : Prop :=
  (∀ s : State, s.chip.dev = .sense → s.chip.startup.xclkValid = true →
     Completes .secChangeover s (fun c => c = { s.chip with startup := { s.chip.startup with secOnPllF := true } }) ∧
     Completes .pllLockTimeout s (fun c => c = { s.chip with startup := { s.chip.startup with secOnPllF := false } }) ∧
     Completes (.pllUnlock .t) s (fun c => c = { s.chip with startup := { s.chip.startup with secOnPllF := false } })) ∧
  (∀ s : State,
     (s.chip.dev = .sense → s.chip.startup.xclkValid = true → s.chip.startup.otpChecked = true →
       s.chip.startup.secOnPllF = true → Completes .senseEnd s fun c =>
         c.dev = .fill ∧ c.fld F.CLK_STATUS.PLL_T_LOCK = 1 ∧ c.fld F.CLK_STATUS.PLL_F_LOCK = 1 ∧
         c.fld F.CLK_STATUS.PLL_M_LOCK = 1 ∧ c.mem = Mem.fresh) ∧
     (s.chip.dev = .fill →
       Completes (.fillComplete { checkError := false, lockedS := true, locked := 63 }) s (fun c =>
         c.dev = .selftest ∧ c.fld F.CLK_STATUS.PLL_S_LOCK = 1 ∧ c.fld F.CLK_STATUS.PLL_V_LOCK = 63 ∧
         c.faults = s.chip.faults ∧ c.mem = s.chip.mem) ∧
       (∀ lockedS locked, locked < 64 → Completes (.fillComplete { checkError := true, lockedS := lockedS, locked := locked }) s
         fun c => c.dev = .faultStop ∧ c.fld F.BIST_STATUS.BASIN_FAIL = 1 ∧ c.fld F.FLT_STOP.CODE = Code.BIST_BASIN)))

/-- R115, R133, R134: a SELFTEST in which everything passes takes the device to LOAD with no unit fenced, no slice retired and no die lost;
a Saddle failure, a failure of all six Vales and two failed Plain dies each take it to FAULT_STOP under the code of R133. -/
def Obligations.SelftestOutcomes : Prop :=
  ∀ s : State, s.chip.dev = .selftest → s.chip.terrace.groups = [] → s.chip.terrace.slices = [] → s.chip.islands.length = 6 →
    (∀ safe, SelftestOutcome.wf { saddleFail := false, valeFail := 0, slices := [], dies := [], survey := 3, safe := safe } = true →
      Completes (.selftestComplete { saddleFail := false, valeFail := 0, slices := [], dies := [], survey := 3, safe := safe }) s
        fun c => c.dev = .load ∧ c.fld F.BIST_STATUS.VALE_FAIL = 0 ∧ c.fld F.BIST_STATUS.PLAIN_LOST = 0 ∧
          c.fld F.BIST_TERRACE.RETIRED = 0 ∧ c.fld F.BIST_TERRACE.HALF_GROUPS = 0 ∧ c.fld F.SRV_STATUS.SLICE_OK = 3 ∧
          c.faults = s.chip.faults ∧ c.islands.map (fun x : Island => x.points) = safe) ∧
    (∀ o : SelftestOutcome, o.wf = true → o.saddleFail = true → Completes (.selftestComplete o) s fun c =>
      c.dev = .faultStop ∧ c.fld F.BIST_STATUS.SADDLE_FAIL = 1 ∧ c.fld F.FLT_STOP.CODE = Code.BIST_SADDLE) ∧
    (∀ o : SelftestOutcome, o.wf = true → o.saddleFail = false → o.valeFail = 63 → Completes (.selftestComplete o) s fun c =>
      c.dev = .faultStop ∧ c.fld F.BIST_STATUS.VALE_FAIL = 63 ∧ c.fld F.FLT_STOP.CODE = Code.BIST_VALE) ∧
    (∀ o : SelftestOutcome, o.wf = true → o.saddleFail = false → o.valeFail = 0 → o.slices = [] →
      2 ≤ ((List.range 10).filter fun d => o.dies.contains d).length → Completes (.selftestComplete o) s fun c =>
        c.dev = .faultStop ∧ c.fld F.FLT_STOP.CODE = Code.PLAIN_TRAIN)

/-- R136, R140, R625: when no load is in progress any more, LOAD ends in HOLD; the first entry into HOLD after the exit from RESET_HOLD puts
the time since that exit, in microseconds, into STARTUP_TIME, and no later one changes it. -/
def Obligations.LoadEndsInHold : Prop :=
  ∀ s : State, s.chip.dev = .load → s.chip.loader.load = none →
    Completes .loadEnd s fun c =>
      c.dev = .hold ∧ c.egress.recovery = [] ∧ c.startup.timing = false ∧ c.mem = s.chip.mem ∧ c.faults = s.chip.faults ∧
      (s.chip.startup.timing = false → c.word A.STARTUP_TIME = s.chip.word A.STARTUP_TIME) ∧
      (∀ us, s.chip.startup.timing = true → s.chip.now = s.chip.startup.exitedAt + 1000 * us → us < 2 ^ 32 →
        c.word A.STARTUP_TIME = Word.of us)

/-- R143, R115: GO in HOLD with an admitted image, no push and no programming in progress enters RUN, or DEGRADED where DEGRADE is not 0;
the tick starts, at slot 0 and with no unit in progress. Image and OTP stay, and but for the queues of its LOOP bindings, which are
emptied (R499), so do the memories. -/
def Obligations.GoEntersRunOrDegraded : Prop :=
  ∀ s : State, s.chip.dev = .hold → s.chip.loader.load = none → s.chip.otp.job = none →
    s.chip.fld F.DEV_STATE.IMAGE_OK = 1 → Completes (.go 0x6050) s fun c =>
      c.dev = (if s.chip.fld F.DEV_STATE.DEGRADE = 0 then .run else .degraded) ∧ c.fld F.DEV_STATE.LAST_CMD = 1 ∧
      c.fld F.TICK_STATUS.RUNNING = 1 ∧ c.fld F.TICK_STATUS.SLOT = 0 ∧ c.sched.starting = true ∧ c.sched.lanes = [] ∧
      c.sched.drain = false ∧ c.loader = s.chip.loader ∧ c.otp = s.chip.otp ∧
      (s.chip.image.bindings = [] → c.mem = s.chip.mem ∧ c.faults = s.chip.faults)

/-- R157, R158: a DEV_CTRL command with a wrong key, in a state it is not valid in, during a load or programming, or GO without an admitted
image does nothing but set LAST_CMD to the reason and record 0x0006 CMD_REJECTED. R135, R146, R147: STOP while the tick runs sets
STOPPING and lets the tick go on; a further STOP changes LAST_CMD alone. RELOAD in HOLD enters LOAD and, where the lifecycle state and
the key hash allow it, starts to read slot A whatever BOOT_SRC reads. -/
def Obligations.StopReloadAndRefusedCommands : Prop :=
  (∀ s : State, s.chip.dev.open = true →
     let refused (i : Instr) (why : Nat) : Prop := Completes i s fun c =>
       c.fld F.DEV_STATE.LAST_CMD = why ∧ Logged Code.CMD_REJECTED noUnit c ∧
       c = { s.chip with regs := c.regs, faults := c.faults } ∧
       FieldsBut (F.DEV_STATE.LAST_CMD :: logFields) s.chip c
     (∀ key, key < 65536 → key ≠ 0x6050 →
       refused (.go key) 2 ∧ refused (.stop key) 2 ∧ refused (.reload key) 2 ∧ refused (.softReset key) 2) ∧
     (s.chip.dev ≠ .hold → refused (.go 0x6050) 3 ∧ refused (.reload 0x6050) 3) ∧
     (s.chip.dev = .hold → refused (.stop 0x6050) 3) ∧
     (s.chip.dev = .hold → s.chip.busyForCmd = true → refused (.go 0x6050) 4 ∧ refused (.reload 0x6050) 4) ∧
     (s.chip.dev = .hold → s.chip.busyForCmd = false → s.chip.fld F.DEV_STATE.IMAGE_OK = 0 → refused (.go 0x6050) 5)) ∧
  (∀ s : State,
     (s.chip.dev.ticking = true → s.chip.loader.load = none → s.chip.loader.hot = none → Completes (.stop 0x6050) s fun c =>
       c.fld F.DEV_STATE.LAST_CMD = 1 ∧ c.fld F.DEV_STATE.STOPPING = 1 ∧ c = { s.chip with regs := c.regs } ∧
       FieldsBut [F.DEV_STATE.LAST_CMD, F.DEV_STATE.STOPPING] s.chip c) ∧
     (s.chip.dev.ticking = true → s.chip.fld F.DEV_STATE.STOPPING = 1 → Completes (.stop 0x6050) s fun c =>
       c.fld F.DEV_STATE.LAST_CMD = 1 ∧ c = { s.chip with regs := c.regs } ∧ FieldsBut [F.DEV_STATE.LAST_CMD] s.chip c) ∧
     (s.chip.dev = .hold → s.chip.busyForCmd = false → s.chip.lifecycle ≠ 5 → s.chip.keysInForce.keyUnset = false →
       Completes (.reload 0x6050) s fun c =>
         c.dev = .load ∧ c.fld F.DEV_STATE.LAST_CMD = 1 ∧ c.fld F.DEV_STATE.IMAGE_OK = 0 ∧ c.fld F.IMG_STATUS.BUSY = 1 ∧
         c.fld F.IMG_STATUS.PHASE = 1 ∧ ∃ l, c.loader.load = some l ∧ l.source = .flashA ∧ l.bytes = []))

/-- R91: loss of lock of PLL_T, PLL_F, PLL_M or PLL_S from FILL onward clears its CLK_STATUS bit, records 0x0105 and, from FILL to DEGRADED,
enters FAULT_STOP; of PLL_C it stops the CSI-2 outputs; of PLL_V it fences the Vale. A PLL that was not locked counts as no loss. -/
def Obligations.PllUnlockResponses : Prop :=
  ∀ s : State,
    (∀ (p : Pll) (bit : Fld), (p, bit) ∈ [(Pll.t, F.CLK_STATUS.PLL_T_LOCK), (Pll.f, F.CLK_STATUS.PLL_F_LOCK),
        (Pll.m, F.CLK_STATUS.PLL_M_LOCK), (Pll.s, F.CLK_STATUS.PLL_S_LOCK)] → s.chip.dev.live = true →
      (s.chip.fld bit = 1 → Completes (.pllUnlock p) s fun c =>
        c.dev = .faultStop ∧ c.fld bit = 0 ∧ Logged Code.PLL_UNLOCK noUnit c ∧ c.fld F.FLT_STOP.CODE = Code.PLL_UNLOCK ∧
        c.sched.lanes = []) ∧
      (s.chip.fld bit = 0 → Completes (.pllUnlock p) s fun c => c = s.chip)) ∧
    (s.chip.fld F.CSI_STATUS.STATE ≠ 0 → Completes (.pllUnlock .c) s fun c =>
      c.dev = s.chip.dev ∧ c.fld F.CSI_STATUS.STATE = 0 ∧ c.fld F.CLK_STATUS.PLL_C_LOCK = 0 ∧
      Logged Code.PLL_UNLOCK noUnit c ∧ c.host.csi = []) ∧
    (∀ n, n < 6 → s.chip.fld (vLock n) = 1 → Completes (.pllUnlock (.v n)) s fun c =>
      c.fld (vLock n) = 0 ∧ c.fld (F.VALE_STATUS.FENCED.vale n) = 1)

/-- R44 to R46, R48 to R50, R62: in OFF, RESET_HOLD and SENSE no ball is driven high or with data, and below 1.71 V on VDDIO only the
fail-safe and the analog ones are. A data lane beyond an in-force lane count stays at Z unless outputs use it; FSYNC_OUT and STROBE are
low from the start of the always-on island on while no tick runs; nFAULT is low or left to its pull-up. A low level on nRESET of 500 ns or more
puts the lanes, the xSPI and I3C data balls and the boot flash's balls at Z. -/
def Obligations.BallsStandAsTheTableSays : Prop :=
  (∀ (c : Chip) (b : Ball), (c.ball b).drivesUp = true →
    c.dev ≠ .off ∧ c.dev ≠ .resetHold ∧ c.dev ≠ .sense ∧ (b.standsAlone = false → 1710 ≤ (c.rail 2).mv)) ∧
  (∀ (c : Chip) (k : Nat), c.host.laneFloor ≤ k → c.fld F.CSI_STATUS.STATE = 0 ∨ c.fld F.CSI_STATUS.LANES ≤ k →
    c.ball (.csiData k) = .z) ∧
  (∀ (c : Chip) (b : Ball), b = .fsyncOut ∨ b = .strobe → c.dev ≠ .off → c.dev.ticking = false → c.ball b = .low) ∧
  (∀ c : Chip, c.ball .nfault = if c.nfaultLow then .low else .z) ∧
  (∀ (s : State) (w : Nat), s.chip.dev ≠ .off → s.chip.dev ≠ .resetHold → 500 ≤ w → Completes (.nresetLow w) s fun c =>
    (∀ b, b ∈ [Ball.csiClock, .xspiDs, .i3cSda, .bfCsN, .bfSck] ∨ (∃ k, b = .csiData k ∨ b = .xspiIo k ∨ b = .bfIo k) →
      c.ball b = .z) ∧
    c.ball .nfault = .low ∧ c.ball .fsyncOut = .low ∧ c.ball .strobe = .low)

/-! ### The tick and its schedule -/

/-- R72, R73, R145: with no stop under way a tick edge begins a frame: TICK_FRAME reads 0 at the first edge after the entry to RUN and one
more (modulo 2^32) at every later one, the slot is 0, the first edge is no longer to come, and the time of the edge is kept. -/
def Obligations.TickEdgeBeginsAFrame : Prop :=
  ∀ (s : State) (mv : Nat), s.chip.dev.ticking = true → s.chip.sched.drain = false →
    s.chip.fld F.DEV_STATE.STOPPING = 0 → Completes (.tickEdge mv) s fun c =>
      c.fld F.TICK_FRAME.FRAME =
        (if s.chip.sched.starting then 0 else (s.chip.fld F.TICK_FRAME.FRAME + 1) % 2 ^ 32) ∧
      c.fld F.TICK_STATUS.SLOT = 0 ∧ c.sched.starting = false ∧ c.sched.drain = false ∧ c.sched.edgeNow = s.chip.now ∧
      c.sched.edgeHalf = false ∧ c.aon = s.chip.aon ∧ c.timebase = s.chip.timebase

/-- R146, R148: with a stop under way and no spill work, a tick edge takes the device to HOLD with HOLD_REASON STOPPED; with spill work it
begins a drain tick, in which TICK_FRAME keeps its value. DRAIN_END takes the device from the drain tick to HOLD. In HOLD no unit is in
progress, no exposure is open and FSYNC_OUT and STROBE are low. -/
def Obligations.StopEndsInHold : Prop :=
  ∀ (s : State), s.chip.dev.ticking = true →
    let held (c : Chip) : Prop :=
      c.dev = .hold ∧ c.fld F.DEV_STATE.HOLD_REASON = 7 ∧ c.fld F.DEV_STATE.STOPPING = 0 ∧ c.fld F.TICK_STATUS.RUNNING = 0 ∧
      c.sched.lanes = [] ∧ c.sched.fsyncOut = false ∧ c.pixel.strobe = false ∧ c.pixel.openLong = 0 ∧ c.pixel.openShort = 0 ∧
      c.fld F.CSI_STATUS.STATE = 0
    (∀ mv, s.chip.fld F.DEV_STATE.STOPPING = 1 → s.chip.sched.drain = false → s.chip.sched.edgeHalf = false →
      let e := ((s.chip.setRail 3 { s.chip.rail 3 with mv := mv }).endPeriod).chooseTable
      (s.chip.sched.starting = true ∨ e.table.spill = 0 → Completes (.tickEdge mv) s held) ∧
      (s.chip.sched.starting = false → e.table.spill ≠ 0 → s.chip.survey.temps = [] → Completes (.tickEdge mv) s fun c =>
        c.sched.drain = true ∧ c.fld F.TICK_FRAME.FRAME = s.chip.fld F.TICK_FRAME.FRAME ∧ c.sched.fsyncOut = false)) ∧
    (s.chip.sched.drain = true → Completes .drainEnd s held)

/-- R85, R92, R101: a slot of the tick in progress begins, not before the slot that TICK_STATUS shows: TICK_STATUS shows it, and FSYNC_OUT
rises in the slot FSO_OFFSET in force, unless FSO_WIDTH in force is 0 or the tick is a drain tick. The pulse's end takes the pin low. -/
def Obligations.SlotsBeginAndFsyncOutPulses : Prop :=
  ∀ s : State,
    (∀ slot, slot < 4096 → s.chip.dev.ticking = true → s.chip.sched.starting = false → s.chip.fld F.TICK_STATUS.SLOT ≤ slot →
      Completes (.slotStart slot) s fun c =>
        c.fld F.TICK_STATUS.SLOT = slot ∧ c.dev = s.chip.dev ∧ c.sched.lanes = s.chip.sched.lanes ∧
        c.sched.fsyncOut = (s.chip.sched.fsyncOut ||
          (decide (s.chip.live F.TICK_CTRL.FSO_OFFSET = slot) && decide (s.chip.live F.TICK_CTRL.FSO_WIDTH ≠ 0) &&
            !s.chip.sched.drain))) ∧
    Completes .fsyncOutEnd s fun c => c = { s.chip with sched := { s.chip.sched with fsyncOut := false } }

/-- R96, R323, R349, R431: an entry whose start slot, window, lane, row gate and predecessor allow it starts its unit: the lane holds it,
before its first pass, and shows it busy with the entry's index. An entry that may not start yet changes nothing. R373: the first pass
of a unit begins with the iteration count that its record gives it, and with a data-dependent count one of at most ITER_MAX; on a
Mover's lane MOV_STATUS.OP shows the pass's operation. -/
def Obligations.UnitsStartAndBeginTheirFirstPass : Prop :=
  (∀ (s : State) (id : Nat) (x : Slotted) (r : UnitRec), id < 16384 → s.chip.planned id = some x → s.chip.planUnit x = some r →
     (s.chip.mayStart x = true → Completes (.unitStart id) s fun c =>
       (∃ u, c.laneRun (laneOfCode x.e.lane) = some u ∧ u.entry = x.id ∧ u.unit = x.e.unitId ∧ u.pass = 0 ∧ u.counts = []) ∧
       (1 ≤ x.e.lane → x.e.lane ≤ 6 → c.fld (F.VALE_STATUS.BUSY.vale (x.e.lane - 1)) = 1 ∧
         c.fld (F.VALE_STATUS.ENTRY.vale (x.e.lane - 1)) = x.id % 8192) ∧
       (x.e.lane = 0 → c.fld F.SAD_STATUS.BUSY = 1 ∧ c.fld F.SAD_STATUS.ENTRY = x.id % 8192) ∧
       (7 ≤ x.e.lane → c.fld (F.MOV_STATUS.BUSY.mov (x.e.lane - 7)) = 1 ∧
         c.fld (F.MOV_STATUS.ENTRY.mov (x.e.lane - 7)) = x.id % 8192) ∧
       c.mem = s.chip.mem) ∧
     (s.chip.mayStart x = false → Completes (.unitStart id) s fun c => c = s.chip)) ∧
  (∀ (s : State) (lane : Nat) (u : UnitRun) (r : UnitRec) (p : PassRec), lane < 9 → s.chip.laneRun lane = some u → u.pass = 0 →
     u.counts = [] → u.waiting = false → (s.chip.wiring u.old).unit (laneCode lane) u.unit = some r → r.passes[0]? = some p →
     Completes (.passStart lane) s fun c =>
       (p.iterSrc = 0 → c.laneRun lane = some { u with counts := [p.iterMax], replay := Replay.none } ∧ c.mem = s.chip.mem) ∧
       (∃ u' n, c.laneRun lane = some u' ∧ u'.counts = [n] ∧ n ≤ p.iterMax ∧ u'.entry = u.entry ∧ u'.pass = 0 ∧ u'.replay = Replay.none) ∧
       (7 ≤ lane → c.fld (F.MOV_STATUS.OP.mov (lane - 7)) = (moverDesc r.body 0).op % 256))

/-- R471, R111: once its last pass has ended and nothing that it issued is outstanding, a unit ends: its lane is free, its entry is done,
and a Vale shows the cycles, as a peak too. R98, R111: an entry whose unit has not ended in the last slot of its window is recorded in
OVERRUN_LOG and as 0x0101 TICK_OVERRUN; its unit in progress is stopped and its lane freed, and it counts as done with its outputs
INCOMPLETE. -/
def Obligations.UnitsEndOrAreCut : Prop :=
  (∀ (s : State) (lane cycles : Nat) (u : UnitRun) (r : UnitRec), lane < 9 →
     (s.chip.finishPass lane).laneRun lane = some u →
     ((s.chip.finishPass lane).wiring u.old).unit (laneCode lane) u.unit = some r →
     (s.chip.finishPass lane).unitSettled lane u r = true → Completes (.unitEnd lane cycles) s fun c =>
       c.laneRun lane = none ∧ u.entry ∈ c.sched.done ∧
       (lane < 6 → c.fld (F.VALE_CYCLES.CYCLES.vale lane) = min 0xFFFFFFFF cycles ∧
         c.fld (F.VALE_LAST_UNIT.ENTRY.vale lane) = u.entry % 8192 ∧ c.fld (F.VALE_STATUS.BUSY.vale lane) = 0 ∧
         c.fld (F.VALE_CYCLES_PEAK.CYCLES.vale lane) =
           max (min 0xFFFFFFFF cycles) ((s.chip.finishPass lane).fld (F.VALE_CYCLES_PEAK.CYCLES.vale lane)))) ∧
  (∀ (s : State) (id : Nat) (x : Slotted), id < 16384 → s.chip.planned id = some x → s.chip.dev.ticking = true →
     s.chip.sched.starting = false → x.e.lane ≤ 8 → id ∉ s.chip.sched.done → x.e.stop ≤ s.chip.fld F.TICK_STATUS.SLOT + 1 →
     Completes (.windowOverrun id) s fun c =>
       c.fld F.OVERRUN_LOG.COUNT = min 255 (s.chip.fld F.OVERRUN_LOG.COUNT + 1) ∧
       c.fld F.OVERRUN_LOG.ENTRY = id % 8192 ∧ id ∈ c.sched.done ∧ id ∈ c.sched.marred ∧
       c.fld ⟨A.FLT_ACTIVE, 1, 1⟩ = 1 ∧
       (∀ u, s.chip.laneRun (laneOfCode x.e.lane) = some u → u.entry = id → c.laneRun (laneOfCode x.e.lane) = none))

/-! ### Slaving to FSYNC_IN -/

/-- R77, R79, R81, R82: a filtered edge in an unused window of the loop is accepted: it is the last accepted edge, uses the window up and
clears MISS_COUNT; one in ACQUIRE without a reference is accepted too. An edge outside every window is counted as OUT_OF_WINDOW and
nothing of the loop changes, and a high level shorter than 20 ns is no edge. R79, R82: a window that closes without an accepted edge
sets MISSED and counts; LOCKED goes to HOLDOVER, and HOLDOVER counts the window. FSYNC_WAIT ticks in ACQUIRE without an edge record
0x0103, and HOLDOVER_MAX missed windows in HOLDOVER 0x0104; both take the loop to FREE. -/
def Obligations.SlavingFollowsFsyncEdges : Prop :=
  (∀ (s : State) (ns ps : Nat), s.chip.dev.ticking = true → s.chip.fld F.TICK_STATUS.SLAVED = 1 →
     (ns < 20 → Completes (.fsyncEdge ns ps) s fun c => c = s.chip) ∧
     (20 ≤ ns → s.chip.slaveState ≠ Slave.free →
       ((useWindow s.chip.rate ps s.chip.sched.windows).isSome = true ∨
           (s.chip.slaveState = Slave.acquire ∧ s.chip.sched.lastEdge = none) →
         Completes (.fsyncEdge ns ps) s fun c =>
           c.sched.lastEdge = some (ps : Int) ∧ c.sched.edgeNew = true ∧ c.sched.idleTicks = 0 ∧
           c.fld F.SLAVE_EVENTS.MISS_COUNT = 0 ∧ c.dev = s.chip.dev) ∧
       (s.chip.sched.windows.any (fun w => inPeriod s.chip.rate (ps - w.1)) = false →
         ¬ (s.chip.slaveState = Slave.acquire ∧ s.chip.sched.lastEdge = none) → Completes (.fsyncEdge ns ps) s fun c =>
           c.fld F.SLAVE_EVENTS.OUT_OF_WINDOW = 1 ∧ c.sched = s.chip.sched ∧ c.slaveState = s.chip.slaveState))) ∧
  (∀ s : State, s.chip.dev.ticking = true →
     (∀ ws, dropUnused s.chip.sched.windows = some ws → Completes .windowMissed s fun c =>
       c.fld F.SLAVE_EVENTS.MISSED = 1 ∧
       c.fld F.SLAVE_EVENTS.MISS_COUNT = min 255 (s.chip.fld F.SLAVE_EVENTS.MISS_COUNT + 1) ∧ c.sched.windows = ws ∧
       (s.chip.slaveState = Slave.locked → c.slaveState = Slave.holdover ∧ c.sched.missed = 0) ∧
       (s.chip.slaveState = Slave.holdover → c.slaveState = Slave.holdover ∧ c.sched.missed = s.chip.sched.missed + 1) ∧
       (s.chip.slaveState = Slave.acquire → c.slaveState = Slave.acquire ∧ c.sched.missed = s.chip.sched.missed)) ∧
     (s.chip.slaveState = Slave.acquire → max 1 (s.chip.live F.FSYNC_CFG.FSYNC_WAIT) ≤ s.chip.sched.idleTicks →
       Completes .fsyncAbsent s fun c => c.slaveState = Slave.free ∧ Logged Code.FSYNC_ABSENT noUnit c ∧ c.sched.windows = []) ∧
     (s.chip.slaveState = Slave.holdover → max 1 (s.chip.live F.TICK_CTRL.HOLDOVER_MAX) ≤ s.chip.sched.missed →
       Completes .slaveLost s fun c => c.slaveState = Slave.free ∧ c.fld F.SLAVE_EVENTS.SLAVE_LOST = 1 ∧
         Logged Code.SLAVE_LOST noUnit c ∧ c.sched.windows = []))

/-! ### Pixels, Terrace converters and the front pipeline -/

/-- R203, R212, R213, R216: a reset or transfer pulse of an active row opens or closes its exposure; the open of row 0 stamps the frame.
STROBE rises at the opening that STROBE_MODE names when the frame allows it, and falls at its closing. Nothing but the pixel array and
the frame's metadata changes; an edge of a short exposure in a mode without one, or outside the frame, changes nothing. R215, R217,
R218: STROBE_MAX, when it is not 0, ends a high STROBE and sets STROBE_CUT; a TRIG edge whose high level lasts 20 ns or more counts in
the tick in progress (saturating at 65 535), and the first of a tick is stamped with the timebase. -/
def Obligations.ExposuresStrobeAndTrig : Prop :=
  (∀ (s : State) (e : Edge) (row ps : Nat), row < 8192 → ps < 1000 → s.chip.dev.ticking = true → s.chip.fld F.PIX_STATUS.ACTIVE = 1 →
     let opening := e == .longOpen || e == .shortOpen
     let short := e == .shortOpen || e == .shortClose
     ((short = true → s.chip.image.readout.short = true) → row < s.chip.image.readout.rows →
       Completes (.exposureEdge e (row, ps)) s fun c =>
         c = { s.chip with pixel := c.pixel, egress := c.egress } ∧
         c.pixel.openLong = s.chip.pixel.openLong + (if e = .longOpen then 1 else 0) - (if e = .longClose then 1 else 0) ∧
         c.pixel.openShort = s.chip.pixel.openShort + (if e = .shortOpen then 1 else 0) - (if e = .shortClose then 1 else 0) ∧
         c.pixel.startStamp = (if e = .longOpen ∧ row = 0 then s.chip.stampAt (1000 * ps) else s.chip.pixel.startStamp) ∧
         c.pixel.strobe = (if s.chip.strobeRises opening short row = true ∧ s.chip.strobeAllowed = true then true
           else if s.chip.strobeFalls opening short row then false else s.chip.pixel.strobe)) ∧
     ((short = true ∧ s.chip.image.readout.short = false) ∨ s.chip.image.readout.rows ≤ row →
       Completes (.exposureEdge e (row, ps)) s fun c => c = s.chip)) ∧
  (∀ s : State,
     (s.chip.pixel.strobe = true → s.chip.live F.STROBE_MAX.US ≠ 0 → Completes .strobeCut s fun c =>
       c.pixel.strobe = false ∧ c.fld F.PIX_EVENTS.STROBE_CUT = 1 ∧ c.pixel = { s.chip.pixel with strobe := false, strobeCut := true } ∧
       FieldsBut [F.PIX_EVENTS.STROBE_CUT] s.chip c) ∧
     (∀ ns ps, ps < 1000 → s.chip.dev.ticking = true → s.chip.trigMode = 1 ∨ s.chip.trigMode = 2 →
       (20 ≤ ns → Completes (.trigEdge (ns, ps)) s fun c =>
         c.pixel.trigEdges = min 65535 (s.chip.pixel.trigEdges + 1) ∧ c.pixel.trigSince.isSome = true ∧
         c.pixel.trigFirst = (if s.chip.pixel.trigEdges = 0 then s.chip.stampAt (1000 * ps) else s.chip.pixel.trigFirst) ∧
         c = { s.chip with pixel := c.pixel }) ∧
       (ns < 20 → Completes (.trigEdge (ns, ps)) s fun c => c = s.chip)))

/-- R96, R201, R230: a row time of the readout begins: TER_ROT.POSITION counts modulo 256, the row time is the last begun, and the rows read
by then are signalled; the end of the readout only signals rows. Outside the readout nothing changes. R230, R236, R237: a rotation
boundary is counted in TER_ROT.BOUNDARIES, saturating, and taken once; every slice that the interval that ends, or the second injection,
has shown to be beyond R236's limits is a good slice of its group no more. -/
def Obligations.RowTimesAndRotationBoundaries : Prop :=
  (∀ (s : State) (k : Int) (raws : List Nat), s.chip.dev.ticking = true → s.chip.fld F.PIX_STATUS.ACTIVE = 1 →
     let r := s.chip.image.readout
     (-(r.lead : Int) ≤ k → k < r.rowTimes → Completes (.rowTimeStart k raws) s fun c =>
       c.fld F.TER_ROT.POSITION = (s.chip.fld F.TER_ROT.POSITION + 1) % 256 ∧ c.terrace.lastRow = k ∧
       c.terrace.boundaryTaken = false ∧ c.sched.rowsRead = max s.chip.sched.rowsRead (k - r.firstActive).toNat ∧
       c.mem = s.chip.mem) ∧
     (k = r.rowTimes → Completes (.rowTimeStart k raws) s fun c =>
       c = { s.chip with sched := { s.chip.sched with rowsRead := max s.chip.sched.rowsRead (k - r.firstActive).toNat } }) ∧
     (k < -(r.lead : Int) ∨ (r.rowTimes : Int) < k → Completes (.rowTimeStart k raws) s fun c => c = s.chip)) ∧
  (∀ s : State, s.chip.dev.ticking = true →
     s.chip.fld F.PIX_STATUS.ACTIVE = 1 → s.chip.fld F.TER_ROT.POSITION = 255 → s.chip.terrace.boundaryTaken = false →
     ∀ refs, Completes (.rotationBoundary refs) s fun c =>
       c.fld F.TER_ROT.BOUNDARIES = min (2 ^ 24 - 1) (s.chip.fld F.TER_ROT.BOUNDARIES + 1) ∧ c.terrace.boundaryTaken = true ∧
       (∀ g, g < 512 → ∀ e ∈ s.chip.terrace.retiring refs true
          (s.chip.terrace.lastRow + 1 == Int.ofNat s.chip.image.readout.firstActive) g,
         (c.terrace.group g).good.testBit e.1 = false) ∧ c.mem = s.chip.mem)

/-- R266, R268: the oldest sample on its way is taken from the Terrace; one of a frame no longer in the pipeline is lost, and one of an
optical-black row within the rows that give the black level, short of that row set's last, marks the pipeline active and is added to its
phase's sum, as one more. -/
def Obligations.SamplesEnterTheFrontPipeline : Prop :=
  ∀ (s : State) (x : Sample) (rest : List Sample), s.chip.terrace.samples = x :: rest →
    Completes .sampleArrival s (fun c => c.terrace.samples = rest) ∧
    (s.chip.front.find? (fun f => f.frame == x.frame) = none → Completes .sampleArrival s fun c =>
      c = { s.chip with terrace := { s.chip.terrace with samples := rest } }) ∧
    (∀ f y v, s.chip.front.find? (fun f => f.frame == x.frame) = some f →
      let r := (s.chip.wiring f.old).readout
      r.rowAt (if r.phaseShort x.phase then x.k + r.lead else x.k) = some (false, y) → x.col < 8192 → x.code = some v →
      blackRow r y = true → ¬ (y + 1 = r.obRows ∧ x.col + 1 = r.width) → Completes .sampleArrival s fun c =>
        c.fld F.FR_STATUS.ACTIVE = 1 ∧
        ∃ g, c.front.find? (fun f => f.frame == x.frame) = some g ∧
          Sparse.get (fun _ => (0, 0)) g.obSum x.phase =
            ((Sparse.get (fun _ => (0, 0)) f.obSum x.phase).1 + v, (Sparse.get (fun _ => (0, 0)) f.obSum x.phase).2 + 1))

/-! ### Survey ADC -/

/-- R253, R254, R255: a GO where the Survey can convert and the effective mask is not empty starts a scan of its channels in ascending order
under the next sequence number, stamped with the timebase at the hold instant, two to three SURVEY cycles later; while a scan runs it is
skipped and counted instead, unless the scan's trigger, from another source, fell in the same SURVEY cycle: then it joins it. R255, R258, R261: after
a scan's last channel the end of the tracking recovery frees the Survey; a read of SRV_FIFO_DATA removes the oldest entry (none of an
empty FIFO), FLUSH all of them, and CLR_COUNTS clears the two counts. -/
def Obligations.SurveyScansAndFifo : Prop :=
  (∀ s : State, s.chip.dev.open = true → s.chip.surveyUp = true →
     let chans := effectiveMask (s.chip.fld F.SRV_MASK.MASK) (s.chip.fld F.SRV_AIN_CFG.DIFF)
     chans ≠ [] →
     (s.chip.survey.busy = false → Completes .srvGo s fun c =>
       c.survey = { s.chip.survey with busy := true, scan := some {
         seq := (s.chip.fld F.SRV_STATUS.SEQ + 1) % 256, cycle := s.chip.surveyCycle, align := s.chip.fld F.SRV_CFG.ALIGN,
         diff := s.chip.fld F.SRV_AIN_CFG.DIFF, todo := chans, dropped := false }, holds := s.chip.survey.holds + 1 } ∧
       c.fld F.SRV_STATUS.BUSY = 1 ∧ c.fld F.SRV_STATUS.SEQ = (s.chip.fld F.SRV_STATUS.SEQ + 1) % 256 ∧
       c.fld F.SRV_SCAN_INFO.SRC = 1 ∧ c.fld F.SRV_SCAN_INFO.N = chans.length ∧
       c.word A.SRV_STAMP_LO = Word.of (s.chip.stampAt (s.chip.holdDelay 1)) ∧ 39062500 ≤ s.chip.holdDelay 1 ∧
       s.chip.holdDelay 1 ≤ 58593750 ∧ c = { s.chip with regs := c.regs, survey := c.survey }) ∧
     (s.chip.survey.busy = true →
       (∃ x, s.chip.survey.scan = some x ∧ x.cycle = s.chip.surveyCycle) → s.chip.fld F.SRV_SCAN_INFO.SRC % 2 = 0 →
       Completes .srvGo s fun c => c.fld F.SRV_SCAN_INFO.SRC = s.chip.fld F.SRV_SCAN_INFO.SRC + 1 ∧
         c = { s.chip with regs := c.regs } ∧ FieldsBut [F.SRV_SCAN_INFO.SRC] s.chip c) ∧
     (s.chip.survey.busy = true →
       (∀ x, s.chip.survey.scan = some x → x.cycle ≠ s.chip.surveyCycle) ∨ s.chip.fld F.SRV_SCAN_INFO.SRC % 2 = 1 →
         Completes .srvGo s fun c =>
       c.fld F.SRV_COUNTS.SKIPPED = min 65535 (s.chip.fld F.SRV_COUNTS.SKIPPED + 1) ∧ c.fld F.SRV_IRQ_STATUS.SKIPPED = 1 ∧
       c = { s.chip with regs := c.regs } ∧ FieldsBut [F.SRV_COUNTS.SKIPPED, F.SRV_IRQ_STATUS.SKIPPED] s.chip c)) ∧
  (∀ s : State,
     (∀ x, s.chip.survey.scan = some x → x.todo = [] → Completes .surveyBusyEnd s fun c =>
       c.survey = { s.chip.survey with scan := none, busy := false } ∧ c.fld F.SRV_STATUS.BUSY = 0 ∧
       c = { s.chip with regs := c.regs, survey := c.survey } ∧ FieldsBut [F.SRV_STATUS.BUSY] s.chip c) ∧
     (s.chip.dev.portsAnswer = true → Completes .srvFifoDataRead s fun c =>
       c = { s.chip with survey := { s.chip.survey with fifo := s.chip.survey.fifo.drop 1 } }) ∧
     (s.chip.dev.open = true → Completes .srvFlush s (fun c =>
         c = { s.chip with survey := { s.chip.survey with fifo := [] } }) ∧
       Completes .srvClrCounts s (fun c => c.word A.SRV_COUNTS = 0 ∧ c = { s.chip with regs := c.regs } ∧
         ∀ a, a ≠ A.SRV_COUNTS → c.word a = s.chip.word a)))

/-- R246, R251, R257, R258, R259: a channel period delivers the code of its four conversions under the scan's alignment: to SRV_LAST,
and to the FIFO unless it holds 64 entries, where the result is discarded and counted. A code outside an enabled window sets the
channel's event; the scan goes on with the next channel, and after the last SCAN_DONE is 1. -/
def Obligations.SurveyResultsAreDelivered : Prop :=
  ∀ (s : State) (cs : List Conversion) (x : Scan) (ch : Nat) (rest : List Nat), cs.length = 4 → s.chip.survey.scan = some x →
    x.todo = ch :: rest → ch < 24 →
    let signed := signedChannel x.diff ch
    let code := (s.chip.surveyCode x.diff ch cs).1
    let data := surveyWord x.align signed code
    Completes (.surveyResult cs) s fun c =>
      c.word (A.SRV_LAST + 4 * ch) = data ∧ (c.survey.scan.map fun y : Scan => y.todo) = some rest ∧
      (rest = [] → c.fld F.SRV_IRQ_STATUS.SCAN_DONE = 1) ∧
      (s.chip.survey.fifo.length < 64 → ∃ e, c.survey.fifo = s.chip.survey.fifo ++ [e] ∧ e.data = data ∧
        fieldOf e.tag 0 5 = ch ∧ fieldOf e.tag 24 8 = x.seq % 256) ∧
      (64 ≤ s.chip.survey.fifo.length → c.survey.fifo = s.chip.survey.fifo ∧
        c.fld F.SRV_COUNTS.DROPPED = min 65535 (s.chip.fld F.SRV_COUNTS.DROPPED + 1) ∧ c.fld F.SRV_IRQ_STATUS.OVERFLOW = 1) ∧
      (s.chip.fld F.SRV_WIN_EN.CH / 2 ^ ch % 2 = 1 → s.chip.outsideWindow ch signed code = true →
        c.fld ⟨A.SRV_WIN_EVENTS, ch, 1⟩ = 1 ∧ c.fld F.SRV_IRQ_STATUS.WINDOW = 1)

/-! ### Replays, island voltages and clocks -/

/-- R379, R383: a sentinel report re-runs a wave of the pass in progress: it counts as one more consecutive replay of that wave, below
SAFE_MV or at it, and one more wave, and its cycles and 4 restart cycles draw on the unit's and the interval's replay budget; until the
replay's cycles have passed the wave is in replay. -/
def Obligations.WaveReplayDrawsOnTheBudget : Prop :=
  ∀ (s : State) (n wave cycles k : Nat) (u : UnitRun) (r : UnitRec), n < 6 → s.chip.islands.length = 6 →
    s.chip.begun n = some (u, r, k) → u.waiting = false → Completes (.waveReplay n (wave, cycles)) s fun c =>
      (∃ v, c.laneRun n = some v ∧ v.entry = u.entry ∧ v.replayed = u.replayed + cycles + 4 ∧ v.replay.wave = wave ∧
        s.chip.now < v.replay.ends ∧
        v.replay.low = (if s.chip.atSafe n then 0 else (if u.replay.wave = wave then u.replay.low else 0) + 1) ∧
        v.replay.high = (if s.chip.atSafe n then (if u.replay.wave = wave then u.replay.high else 0) + 1 else 0)) ∧
      (c.island n).waves = (s.chip.island n).waves + 1 ∧ (c.island n).used = (s.chip.island n).used + cycles + 4 ∧
      (s.chip.unitBudget n u ≤ u.replayed + cycles + 4 → u.told.testBit 3 = false →
        c.fld (F.APX_EVENTS.EXHAUST.vale n) = 1 ∧ Logged Code.REPLAY_EXHAUST n c ∧ (c.island n).exhausted = true)

/-- R381, R382: after four consecutive replays of a wave below SAFE_MV the island rises at once and is held; after sixteen at SAFE_MV the
Vale is fenced, and its unit is stopped. Short of that many, neither command changes anything. -/
def Obligations.ReplayStormsRaiseAndStuckReplaysFence : Prop :=
  ∀ (s : State) (n : Nat) (u : UnitRun), n < 6 → s.chip.islands.length = 6 → s.chip.laneRun n = some u →
    (4 ≤ u.replay.low → Completes (.replayStorm n) s fun c =>
      c.fld (F.APX_EVENTS.STORM.vale n) = 1 ∧ (c.island n).holdReplay = 1 ∧ s.chip.safeMv n ≤ (c.island n).goal ∧
      s.chip.safeMv n ≤ (c.island n).target ∧ c.sched = s.chip.sched ∧ FieldsBut [F.APX_EVENTS.STORM.vale n] s.chip c) ∧
    (u.replay.low < 4 → Completes (.replayStorm n) s fun c => c = s.chip) ∧
    (16 ≤ u.replay.high → s.chip.fenced n = false → Completes (.replayStuck n) s fun c =>
      c.fld (F.APX_EVENTS.STUCK.vale n) = 1 ∧ c.fld (F.VALE_STATUS.FENCED.vale n) = 1 ∧ c.laneRun n = none ∧
      c.fld (causeField n) = 3) ∧
    (u.replay.high < 16 → Completes (.replayStuck n) s fun c => c = s.chip)

/-- R386, R387, R403: at slot 4 064 the controller of each Vale in service takes its new OFFSET and QUIET from the interval that ends, shows
the interval's waves, cycles and budget, starts the next interval, and sets the target of the next tick; a fenced Vale's island does not
change. -/
def Obligations.VoltageEvaluationSetsTheNextTarget : Prop :=
  ∀ s : State, s.chip.dev.ticking = true → s.chip.sched.starting = false → s.chip.fld F.TICK_STATUS.SLOT = 4064 →
    s.chip.islands.length = 6 → Completes .voltageEvaluation s fun c => ∀ n, n < 6 →
      (s.chip.fenced n = true → c.island n = s.chip.island n) ∧
      (s.chip.fenced n = false → (s.chip.island n).next = none →
        (c.island n).offset = (s.chip.controller n (s.chip.island n)).1 ∧
        (c.island n).quiet = (s.chip.controller n (s.chip.island n)).2 ∧ (c.island n).next.isSome = true ∧
        (c.island n).waves = 0 ∧ (c.island n).used = 0 ∧
        c.fld (F.APX_REPLAY_WAVES.COUNT.vale n) = min 0xFFFFFFFF (s.chip.island n).waves ∧
        c.fld (F.APX_REPLAY_CYCLES.COUNT.vale n) = min 0xFFFFFFFF (s.chip.island n).used)

/-- R398, R320: when the island raised for an EXACT unit is at SAFE_MV, the held unit no longer waits. A REQ_MHZ write on a Vale in service
is rounded up to a multiple of 25 MHz, raised to 200 MHz and to the declared minimum, and lowered to 1 000 MHz. -/
def Obligations.ExactUnitsBeginAndClocksAreRequested : Prop :=
  ∀ (s : State) (n : Nat), n < 6 →
    (∀ u, s.chip.laneRun n = some u → u.waiting = true → s.chip.atSafe n = true → Completes (.islandAtSafeMv n) s fun c =>
      ∃ v, c.laneRun n = some v ∧ v.waiting = false ∧ v.entry = u.entry ∧ v.pass = u.pass) ∧
    (∀ mhz, mhz < 1024 → s.chip.dev.open = true → s.chip.fenced n = false →
      s.chip.loader.image = none ∨ s.chip.table.mhz n ≠ 0 → Completes (.reqMhzWrite n mhz) s fun c =>
        c.fld (F.VALE_CLK.REQ_MHZ.vale n) =
          min 1000 (max (max 200 ((mhz + 24) / 25 * 25)) ((s.chip.table.mhz n + 24) / 25 * 25)) ∧
        c = { s.chip with regs := c.regs,
                          sched := { s.chip.sched with written := c.sched.written, writtenAt := c.sched.writtenAt } } ∧
        FieldsBut [F.VALE_CLK.REQ_MHZ.vale n] s.chip c)

/-! ### Movers and expert layers -/

/-- R420 to R428, R353 to R371: each Mover command does the pass of its operation that the Mover has begun: the unit goes on to its next
pass, and MOV_STATUS shows no operation. With no such pass begun it changes nothing. -/
def Obligations.MoverPassesComplete : Prop :=
  ∀ (s : State) (m op : Nat) (i : Instr), m < 2 →
    (op, i) ∈ [(1, Instr.copy m), (2, Instr.moverFill m), (3, Instr.gather m), (4, Instr.route m), (5, Instr.combine m),
      (6, Instr.place m)] →
    (∀ u r d n, s.chip.moverPass m op = some (u, r, d, n) → Completes i s fun c =>
      (∃ v, c.laneRun (m + 7) = some v ∧ v.entry = u.entry ∧ v.pass = u.pass + 1 ∧ v.counts = u.counts) ∧
      c.fld (F.MOV_STATUS.OP.mov m) = 0 ∧ c.fld (F.MOV_STATUS.DESCENDING.mov m) = 0) ∧
    (s.chip.moverPass m op = none → Completes i s fun c => c = s.chip)

/-- R423, R426: one row of COPY stores, at its destination in a memory other than the Plain, the bytes read at its source, poison included,
with their check bits; one row of FILL stores its 8-byte pattern over and over. Every byte outside the destination row stays. R427: a
row of GATHER whose index is 0xFFFF_FFFF stores zeros; an index beyond LIMIT stores nothing, is logged, sets GATHER_RANGE and marks the
unit; any other index stores the row that it selects, poison included. -/
def Obligations.MoverRowsAreStored : Prop :=
  (∀ (s : State) (m : Nat) (u : UnitRun) (r : UnitRec) (d : MDesc), m < 2 → d.y = 1 → d.z = 1 → d.dstMem ≠ 8 →
     s.chip.memDown d.dstMem = false → d.dst + d.x ≤ memSize d.dstMem →
     let stores (row : List MByte) (c : Chip) : Prop :=
       (∀ k, k < d.x → c.mem.byte (memKey d.dstMem (d.dst + k)) = (row.getD k MByte.aborted).v ∧
         c.mem.check (memKey d.dstMem (d.dst + k)) = secEncode (row.getD k MByte.aborted).v (row.getD k MByte.aborted).p) ∧
       (∀ a, a < memKey d.dstMem d.dst ∨ memKey d.dstMem (d.dst + d.x) ≤ a → c.mem.byte a = s.chip.mem.byte a)
     (s.chip.moverPass m 1 = some (u, r, d, 1) →
       Completes (.copy m) s (stores (s.chip.fabRead d.srcMem d.src d.x).1)) ∧
     (s.chip.moverPass m 2 = some (u, r, d, 1) →
       Completes (.moverFill m) s
         (stores ((List.range d.x).map fun k => MByte.clean ((leBytes 4 d.p0 ++ leBytes 4 d.p1).getD (k % 8) 0))))) ∧
  (∀ (s : State) (m : Nat) (u : UnitRun) (r : UnitRec) (d : MDesc) (idx : Nat), m < 2 → d.y = 1 → d.z = 1 → d.dstMem ≠ 8 →
     d.dst + d.x ≤ memSize d.dstMem → s.chip.moverPass m 3 = some (u, r, d, 1) →
     let list := s.chip.fabRead (d.p1 % 256) d.p0 4
     gatherIndex list.1 = some idx → list.2.memDown d.dstMem = false →
     (idx = 0xFFFFFFFF → Completes (.gather m) s fun c =>
       ∀ k, k < d.x → c.mem.byte (memKey d.dstMem (d.dst + k)) = 0) ∧
     (idx ≠ 0xFFFFFFFF → d.p2 ≤ idx → Completes (.gather m) s fun c =>
       c.fld (F.MOV_GATHER_LOG.INDEX.mov m) = idx ∧ c.fld F.MEM_EVENTS.GATHER_RANGE = 1 ∧
       (∃ v, c.laneRun (m + 7) = some v ∧ v.tainted = true) ∧ c.mem.data = s.chip.mem.data) ∧
     (idx ≠ 0xFFFFFFFF → idx < d.p2 → Completes (.gather m) s fun c =>
       ∀ k, k < d.x → c.mem.byte (memKey d.dstMem (d.dst + k)) =
         ((list.2.fabRead d.srcMem (rowAddr d.src d.ssi d.ssz d.ssy 0 0 idx) d.x).1.getD k MByte.aborted).v))

/-- R354: a token selects at most KMAX experts, in ascending order, each with a gate score not below τ; it reports candidates left out
exactly when more than KMAX experts have such a score. R354, R364: a ROUTE call counts every token of its tiles as routed in its layer.
R361: a COMBINE call over one token whose route record is not this frame's marks the unit. R367: a PLACE call copies of the one pending
seat of a layer what BYTES_MAX lets it, and nothing in a tick that began with a switch. -/
def Obligations.ExpertPassesSelectAndCopy : Prop :=
  (∀ (kmax tau : Nat) (g : List Nat),
     let sel := selectExperts kmax tau g
     sel.1.length ≤ kmax ∧ sel.1.Pairwise (· < ·) ∧ (∀ e ∈ sel.1, e < g.length ∧ FE.lt (g.getD e 0) tau = false) ∧
       (sel.2 = true ↔ kmax < (g.filter fun x => !FE.lt x tau).length)) ∧
  (∀ (s : State) (m : Nat) (u : UnitRun) (r : UnitRec) (d : MDesc), m < 2 →
     (s.chip.moverPass m 4 = some (u, r, d, 1) → ∀ l x,
       let q := RouteParam.ofBytes (sliceOf (moverConsts r.body) d.p0 48)
       (s.chip.wiring u.old).layerRecs[q.layer]? = some l → s.chip.layer u.old q.layer = some x →
       Completes (.route m) s fun c => ∃ y, c.layer u.old q.layer = some y ∧ y.routed = x.routed + q.tiles * q.tokens ∧
         y.seats = x.seats ∧ y.banks = x.banks) ∧
     (s.chip.moverPass m 5 = some (u, r, d, 1) → ∀ l,
       let q := CombineParam.ofBytes (sliceOf (moverConsts r.body) d.p0 32)
       let rec_ := bytesOf (s.chip.fabRead 0 q.records 40).1
       (s.chip.wiring u.old).layerRecs[q.layer]? = some l → q.tiles = 1 → q.tokens = 1 → Completes (.combine m) s fun c =>
         ∃ v, c.laneRun (m + 7) = some v ∧ v.tainted = (u.tainted ||
           !(leAt rec_ 0 2 == 1024 * q.first && leAt rec_ 5 1 == s.chip.runFrame u.ofs % 256))) ∧
     (s.chip.moverPass m 6 = some (u, r, d, 1) → ∀ l x,
       let q := placeParam r d
       (s.chip.wiring u.old).layerRecs[q.1]? = some l → s.chip.layer u.old q.1 = some x → l.seats.length = 1 →
       (∀ e, x.switched = false → x.pending = some [some e] → Completes (.place m) s fun c =>
         ∃ y, c.layer u.old q.1 = some y ∧ natAt y.copied 0 = natAt x.copied 0 + min q.2 (l.wsize - natAt x.copied 0)) ∧
       (x.switched = true → Completes (.place m) s fun c => c.layers = s.chip.layers ∧ c.mem = s.chip.mem)))

/-- R366, R368, R369, R370: a decision that falls due on a layer leaves a frozen layer's placement alone, is skipped (PLACE_SKIP) while a
revision is pending, and else makes the moves that demand gives pending. A switch that falls due brings the pending revision into force:
its seats take their experts, their banks exchange, and the placement's version counts modulo 256. -/
def Obligations.PlacementDecidesAndSwitches : Prop :=
  ∀ (s : State) (l : Nat) (r : LayerRec) (x : Layer), l < 16 → s.chip.dev.ticking = true →
    s.chip.image.layerRecs[l]? = some r → s.chip.layers[l]? = some x →
    (∀ p, s.chip.image.policies.find? (fun p => p.layer == l) = some p → x.dueDecision = true →
      let done : Layer := { x with dueDecision := false, period := [] }
      let pend := (s.chip.decide_ r p x).foldl (fun (q : List (Option Nat)) mv => q.set mv.1 (some mv.2)) (r.seats.map fun _ => none)
      (s.chip.layerFrozen r = true ∨ (x.pending = none ∧ s.chip.decide_ r p x = []) →
        Completes (.placementDecision l) s fun c => c = { s.chip with layers := s.chip.layers.set l done }) ∧
      (s.chip.layerFrozen r = false → x.pending ≠ none → Completes (.placementDecision l) s fun c =>
        c.layers = s.chip.layers.set l done ∧ c.fld F.RT_EVENTS.PLACE_SKIP = 1) ∧
      (s.chip.layerFrozen r = false → x.pending = none → s.chip.decide_ r p x ≠ [] → Completes (.placementDecision l) s fun c =>
        c = { s.chip with layers := s.chip.layers.set l { done with pending := some pend, copied := [] } })) ∧
    (∀ p, x.pending = some p → x.dueSwitch = true → Completes (.placementSwitch l) s fun c =>
      ∃ y, c.layers = s.chip.layers.set l y ∧ y.pending = none ∧ y.switched = true ∧ y.version = (x.version + 1) % 256 ∧
        (∀ i e, i < x.seats.length → p.getD i none = some e → y.seats.getD i none =
          if s.chip.valeOut (r.seat i).vale then none else some e) ∧
        (∀ i, i < x.banks.length → y.banks.getD i false = (x.banks.getD i false ^^ (p.getD i none).isSome)) ∧
        c = { s.chip with layers := c.layers })

/-! ### The fabric and the queues -/

/-- R464, R433, R435, R619: a read request is answered by RD_DATA with the bytes read, poison included, and changes no memory cell; a write
request stores its bytes with their check bits, and no others, and is answered by WR_ACK. A request for a pool in partial reset is
answered by RESET_ABORT with 64 poisoned zeros, is counted, and touches no memory. R461, R463: a reply comes from the node that carries
the memory, on the request's VC and with its tag, memory, offset and length. -/
def Obligations.FabricRequestsAreServed : Prop :=
  ∀ (s : State) (node vc tag mem off : Nat), flitWf node vc tag = true →
    let reply (k : ReplyKind) (n : Nat) (bs : List MByte) : Reply :=
      { kind := k, src := memNode mem off, dst := node, vc := vc, tag := tag, mem := mem, addr := off, bytes := n, data := bs,
        popped := false }
    let aborted (n : Nat) (m : Mem) (c : Chip) : Prop :=
      c.fabric.net = s.chip.fabric.net ++ [reply .resetAbort n (List.replicate 64 MByte.aborted)] ∧ c.mem = m ∧
      c.fld F.FLT_PART.ABORTS = min 65535 (s.chip.fld F.FLT_PART.ABORTS + 1) ∧ c.fld F.PASS_EVENTS.RESET_ABORT = 1
    (∀ n us, inBlock mem off n = true → us.all Upset.wf = true →
      let m := (s.chip.upset us).mem
      (s.chip.memDown mem = false → mem ≠ 8 → off + n ≤ memSize mem → Completes (.rdReq node vc tag mem off n us) s fun c =>
        c.fabric.net = s.chip.fabric.net ++
          [reply .rdData n ((List.range n).map fun i => (m.loadByte (memKey mem off + i)).1)] ∧
        c.mem.data = m.data ∧ c.mem.chk = m.chk ∧
        (CleanAt m (memKey mem off) n → c.mem = m ∧ c.regs = s.chip.regs ∧ c.faults = s.chip.faults)) ∧
      (s.chip.memDown mem = true → Completes (.rdReq node vc tag mem off n us) s (aborted n m))) ∧
    (∀ bs, inBlock mem off bs.length = true →
      (s.chip.memDown mem = false → mem ≠ 8 → off + bs.length ≤ memSize mem → Completes (.wrReq node vc tag mem off bs) s fun c =>
        c.fabric.net = s.chip.fabric.net ++ [reply .wrAck bs.length []] ∧ c.regs = s.chip.regs ∧
        (∀ i b, bs[i]? = some b → c.mem.byte (memKey mem off + i) = b.v ∧
          c.mem.check (memKey mem off + i) = secEncode b.v b.p) ∧
        (∀ a, a < memKey mem off ∨ memKey mem off + bs.length ≤ a → c.mem.byte a = s.chip.mem.byte a)) ∧
      (s.chip.memDown mem = true → Completes (.wrReq node vc tag mem off bs) s (aborted bs.length s.chip.mem)))

/-- R475, R476, R477: a push to an ACTIVE queue that is not full and not short of credit stores the element at its slot and adds 1 to TAIL,
with status 0; a pop by the owner of an ACTIVE queue returns the element at HEAD and adds 1 to HEAD, with status 0, or status 6 when the
queue is empty. R480: RESUME makes a FROZEN queue ACTIVE, FLUSH empties it first; on any other queue they are rejected. -/
def Obligations.QueuesPushPopAndThaw : Prop :=
  ∀ (s : State) (q : Nat), q < 65536 →
    let d := s.chip.mem.descriptor q
    let key (i : Nat) : Nat := memKey (QDesc.ringMem d) (QDesc.slot d i)
    let word (a : Nat) (lo n : Nat) : Prop := a < 32 * q + lo ∨ 32 * q + lo + n ≤ a
    CleanAt s.chip.mem (32 * q) 32 →
    (∀ node vc tag, flitWf node vc tag = true → QDesc.malformed d = false → QDesc.state d = 1 → QDesc.ringMem d = 0 →
      (∀ el, el.length ≤ QDesc.size d → QDesc.credits d = 0 ∨ QDesc.tickPushes d ≠ QDesc.credits d →
        QDesc.fill d ≠ QDesc.capacity d → Completes (.qPush node vc tag q el) s fun c =>
          (∃ r, c.fabric.net = s.chip.fabric.net ++ [r] ∧ r.kind = .qReply ∧ r.dst = node ∧ r.tag = tag ∧ r.status = 0) ∧
          (∀ i b, el[i]? = some b → c.mem.byte (key (QDesc.tail d) + i) = b.v) ∧
          QDesc.tail (c.mem.descriptor q) = (QDesc.tail d + 1) % 0x100000000 ∧
          QDesc.head (c.mem.descriptor q) = QDesc.head d ∧ c.regs = s.chip.regs ∧
          (∀ a, a < key (QDesc.tail d) ∨ key (QDesc.tail d) + QDesc.size d ≤ a → word a 20 4 → word a 28 2 →
            c.mem.byte a = s.chip.mem.byte a)) ∧
      (node = QDesc.owner d → QDesc.fill d ≠ 0 → CleanAt s.chip.mem (key (QDesc.head d)) (QDesc.size d) →
        Completes (.qPop node vc tag q) s fun c =>
          (∃ r, c.fabric.net = s.chip.fabric.net ++ [r] ∧ r.kind = .qReply ∧ r.dst = node ∧ r.tag = tag ∧ r.status = 0 ∧
            r.popped = true ∧ r.data = (List.range (QDesc.size d)).map fun i =>
              MByte.clean (s.chip.mem.byte (key (QDesc.head d) + i))) ∧
          QDesc.head (c.mem.descriptor q) = (QDesc.head d + 1) % 0x100000000 ∧
          QDesc.tail (c.mem.descriptor q) = QDesc.tail d ∧ c.regs = s.chip.regs ∧
          (∀ a, word a 16 4 → c.mem.byte a = s.chip.mem.byte a)) ∧
      (node = QDesc.owner d → QDesc.fill d = 0 → Completes (.qPop node vc tag q) s fun c =>
        (∃ r, c.fabric.net = s.chip.fabric.net ++ [r] ∧ r.kind = .qReply ∧ r.dst = node ∧ r.status = 6 ∧ r.data = [] ∧
          r.popped = false) ∧ c.mem = s.chip.mem ∧ c.regs = s.chip.regs)) ∧
    (s.chip.dev.open = true → QDesc.state d = 2 →
      (Completes (.resume q) s fun c =>
        QDesc.state (c.mem.descriptor q) = 1 ∧ (∀ a, a ≠ 32 * q → c.mem.byte a = s.chip.mem.byte a) ∧
        c.regs = s.chip.regs) ∧
      (Completes (.flush q) s fun c =>
        QDesc.state (c.mem.descriptor q) = 1 ∧ QDesc.head (c.mem.descriptor q) = QDesc.tail d ∧
        (∀ a, a ≠ 32 * q → word a 16 4 → c.mem.byte a = s.chip.mem.byte a) ∧ c.regs = s.chip.regs)) ∧
    (s.chip.dev.open = true → QDesc.state d ≠ 2 → ∀ i, i ∈ [Instr.resume q, Instr.flush q] → Completes i s fun c =>
      c.fld F.Q_EVENTS.UNFREEZE_REJECTED = 1 ∧ c = { s.chip with regs := c.regs } ∧
      FieldsBut [F.Q_EVENTS.UNFREEZE_REJECTED] s.chip c)

/-- R483, R490: the host pushes the bytes of QH_DATA to a Bulk or Maintenance queue and pops a queue of node 0 into QH_DATA, and QH_STATUS
shows the status; a push to any other class and a pop of any other owner's queue are refused with status 7 and recorded; so is, as the
model's reading (log entry 119), any of them outside HOLD, RUN and DEGRADED. A write of Q_SEL copies the descriptor into Q_SNAP. -/
def Obligations.HostReachesTheQueues : Prop :=
  ∀ (s : State) (q : Nat), q < 65536 →
    let d := s.chip.mem.descriptor q
    let key (i : Nat) : Nat := memKey (QDesc.ringMem d) (QDesc.slot d i)
    let refused (c : Chip) : Prop := c.fld F.QH_STATUS.STATUS = 7 ∧ Logged Code.HOST_QUEUE_FORBIDDEN q c ∧ c.mem = s.chip.mem
    (s.chip.dev.portsAnswer = true → s.chip.dev.open = false → ∀ i, i ∈ [Instr.qhPush q, Instr.qhPop q] → Completes i s refused) ∧
    (s.chip.dev.open = true → CleanAt s.chip.mem (32 * q) 32 →
    (QDesc.malformed d = false → QDesc.state d = 1 → QDesc.ringMem d = 0 →
      (QDesc.cls d = 2 ∨ QDesc.cls d = 3 → QDesc.credits d = 0 ∨ QDesc.tickPushes d ≠ QDesc.credits d →
        QDesc.fill d ≠ QDesc.capacity d → Completes (.qhPush q) s fun c =>
          c.fld F.QH_STATUS.STATUS = 0 ∧
          (∀ i, i < QDesc.size d → c.mem.byte (key (QDesc.tail d) + i) = s.chip.qhData.getD i 0) ∧
          QDesc.tail (c.mem.descriptor q) = (QDesc.tail d + 1) % 0x100000000 ∧
          FieldsBut [F.QH_STATUS.STATUS, F.QH_STATUS.POISON] s.chip c) ∧
      (QDesc.owner d = 0 → QDesc.fill d ≠ 0 → CleanAt s.chip.mem (key (QDesc.head d)) (QDesc.size d) →
        Completes (.qhPop q) s fun c =>
          c.fld F.QH_STATUS.STATUS = 0 ∧ c.fld F.QH_STATUS.POISON = 0 ∧
          (∀ i, i < QDesc.size d → c.qhData.getD i 0 = s.chip.mem.byte (key (QDesc.head d) + i)) ∧
          QDesc.head (c.mem.descriptor q) = (QDesc.head d + 1) % 0x100000000)) ∧
    (QDesc.cls d ≠ 2 → QDesc.cls d ≠ 3 → Completes (.qhPush q) s refused) ∧
    (QDesc.owner d ≠ 0 → Completes (.qhPop q) s refused) ∧
    (Completes (.qSelWrite q) s fun c =>
      c.fld F.Q_SEL.QUEUE = q ∧ (∀ i, i < 8 → (c.word (A.Q_SNAP + 4 * i)).toNat = leAt d (4 * i) 4) ∧
      c = { s.chip with regs := c.regs } ∧
      FieldsBut (F.Q_SEL.QUEUE :: (List.range 8).map fun i => ⟨A.Q_SNAP + 4 * i, 0, 32⟩) s.chip c))

/-- R464, R470, R471, R619: the oldest reply from a node to a node on a VC leaves the fabric and is the requester's latest, or is discarded
when the requester's block is in partial reset, an element that it carries with it; no reply of another kind overtakes it, and with none
on its way nothing changes. R521: a REG flit carries the oldest posted write not yet sent, and its reply acknowledges the oldest. R476:
a stalled push is sent again, kept only while its queue is full, and answered each time. -/
def Obligations.RepliesReachTheirRequesters : Prop :=
  ∀ s : State,
    (∀ (w : Route) (kind : ReplyKind) (i : Instr), w.src < 20 → w.dst < 20 → w.vc < 4 →
      (kind, i) ∈ [(ReplyKind.rdData, Instr.rdData w), (.wrAck, .wrAck w), (.qReply, .qReply w), (.resetAbort, .resetAbort w)] →
      let onRoute (x : Reply) : Prop := x.src = w.src ∧ x.dst = w.dst ∧ x.vc = w.vc
      (∀ pre r post, s.chip.fabric.net = pre ++ r :: post → onRoute r → (∀ x ∈ pre, ¬ onRoute x) →
        (r.kind = kind → Completes i s fun c =>
          c.fabric.net = pre ++ post ∧ c.mem = s.chip.mem ∧
          (s.chip.nodeDown w.dst = false → (w.dst, r) ∈ c.fabric.arrived ∧ c = { s.chip with fabric := c.fabric }) ∧
          (s.chip.nodeDown w.dst = true → c.fabric.arrived = s.chip.fabric.arrived ∧
            c.fld F.FLT_PART.LOST = if r.popped then min 255 (s.chip.fld F.FLT_PART.LOST + 1)
              else s.chip.fld F.FLT_PART.LOST)) ∧
        (r.kind ≠ kind → Completes i s fun c => c = s.chip)) ∧
      ((∀ x ∈ s.chip.fabric.net, ¬ onRoute x) → Completes i s fun c => c = s.chip)) ∧
    (∀ pre w post, s.chip.host.writes = pre ++ w :: post → (∀ x ∈ pre, x.sent = true) → w.sent = false →
      Completes .reg s fun c =>
        c.host.writes = pre ++ { w with sent := true } :: post ∧
        (∃ r, c.fabric.net = s.chip.fabric.net ++ [r] ∧ r.kind = .regReply ∧ r.dst = 0) ∧
        c = { s.chip with host := c.host, fabric := c.fabric }) ∧
    (∀ pre r post, s.chip.fabric.net = pre ++ r :: post → r.kind = .regReply → r.dst = 0 →
      (∀ x ∈ pre, ¬ (x.kind = .regReply ∧ x.dst = 0)) → Completes .regReply s fun c =>
        c.fabric.net = pre ++ post ∧ c.host.writes = s.chip.host.writes.drop 1 ∧
        (∀ f, s.chip.host.fetchX = some f → c.host.fetchX = some { f with behind := f.behind - 1 }) ∧
        c = { s.chip with host := c.host, fabric := c.fabric }) ∧
    (∀ lane pre p post, lane < 9 → s.chip.fabric.stalled = pre ++ p :: post → p.lane = lane →
      (∀ x ∈ pre, x.lane ≠ lane) → Completes (.pushRetry lane) s fun c =>
        let st := (s.chip.qPush p.queue p.data true).1
        c.fabric.stalled = (if st = 1 then s.chip.fabric.stalled else pre ++ post) ∧
        (∀ vc tag, p.flit = some (vc, tag) → ∃ r, c.fabric.net = s.chip.fabric.net ++ [r] ∧ r.kind = .qReply ∧ r.dst = p.src ∧
          r.vc = vc ∧ r.tag = tag ∧ r.status = st % 16))

/-! ### Error correction and scrubbing -/

/-- R433: every write of a byte stores the check bits of the table, which make the XOR of all 13 bits 0. R435: the syndrome, to which every
flipped bit adds the column of R434, decides the outcome: 0 is no error, a column inverts its bit, everything else is uncorrectable and
delivered as stored with the mark. R436, R438 to R443: the byte code reads a stored byte back, corrects any one flipped bit of the 13,
and finds any two and a poison mark uncorrectable. The Plain code reads eight symbols back, corrects any one wrong symbol and names its
die; with a die declared lost it restores that die's symbol whatever it holds, and finds one more wrong symbol uncorrectable. -/
def Obligations.ErrorCodesCorrectWhatTheyPromise : Prop :=
  (∀ (m : Mem) (k : Nat) (b : MByte), (m.storeByte k b).byte k = b.v ∧ (m.storeByte k b).check k = secEncode b.v b.p) ∧
  (∀ d : Byte, let c := secEncode d false
    let x (bits : List Nat) : Bool := bits.foldl (fun a i => a ^^ d.getLsbD i) false
    c.getLsbD 0 = x [0, 1, 3, 4, 6] ∧ c.getLsbD 1 = x [0, 2, 3, 5, 6] ∧ c.getLsbD 2 = x [1, 2, 3, 7] ∧
    c.getLsbD 3 = x [4, 5, 6, 7] ∧ c.toNat < 32 ∧
    c.getLsbD 4 = (x [0, 1, 2, 3, 4, 5, 6, 7] ^^ c.getLsbD 0 ^^ c.getLsbD 1 ^^ c.getLsbD 2 ^^ c.getLsbD 3) ∧
    secSyndrome d c = 0) ∧
  (∀ d c : Byte, c.toNat < 32 →
    let column (i : Nat) : Nat := [0x13, 0x15, 0x16, 0x17, 0x19, 0x1A, 0x1B, 0x1C, 0x11, 0x12, 0x14, 0x18, 0x10].getD i 0
    let sy := secSyndrome d c
    (∀ i, i < 13 → let b := flipBit i (d, c)
      secSyndrome b.1 b.2 = sy ^^^ column i ∧ (sy = column i → secDecode d c = (b.1, .corrected))) ∧
    (sy = 0 → secDecode d c = (d, .clean)) ∧
    (sy = 0x1D ∨ sy = 0x1E ∨ sy = 0x1F ∨ (0 < sy ∧ sy < 16) → secDecode d c = (d, .uncorrectable))) ∧
  (∀ (m : Mem) (k : Nat), (secDecode (m.byte k) (m.check k)).2 = .uncorrectable →
    m.loadByte k = (⟨m.byte k, true⟩, .uncorrectable)) ∧
  (∀ d : Byte, secDecode d (secEncode d false) = (d, .clean) ∧ (secDecode d (secEncode d true)).2 = .uncorrectable ∧
    (∀ i, i < 13 → let b := flipBit i (d, secEncode d false)
      secDecode b.1 b.2 = (d, .corrected)) ∧
    (∀ i j, i < j → j < 13 → let b := flipBit i (flipBit j (d, secEncode d false))
      (secDecode b.1 b.2).2 = .uncorrectable)) ∧
  (∀ ds : List Byte, ds.length = 8 →
    let w := ds ++ [(rsEncode ds).1, (rsEncode ds).2]
    rsDecode none w = ⟨ds, .clean, 0xF⟩ ∧
    (∀ k e, k < 10 → e ≠ 0 → rsDecode none (rsFix w k e) = ⟨ds, .corrected, k⟩) ∧
    (∀ l x, l < 10 → rsDecode (some l) (w.set l x) = ⟨ds, .clean, 0xF⟩) ∧
    (∀ l x k e, l < 10 → k < 10 → k ≠ l → e ≠ 0 → (rsDecode (some l) (rsFix (w.set l x) k e)).outcome = .uncorrectable))

/-- R437: a corrected byte goes back with fresh check bits. R444, R445, R446: THRESH corrections in a window, a failed channel and a keyed
DECLARE each declare a die lost while none is; a second die's loss, or two at once, is fatal under 0x0B06, but a DECLARE of one, or in a
state that takes none, is rejected. A window's end moves every die's count to LAST. -/
def Obligations.DiesAreLostOnceAndBytesWrittenBack : Prop :=
  ∀ s : State,
    let lossFields : List Fld := [F.DEV_STATE.DEGRADE, F.ECC_STATUS.LOST_DIE, F.ECC_STATUS.LOSS_CAUSE, F.ECC_EVENTS.DIE_LOST]
    let lost (d cause : Nat) (c : Chip) : Prop :=
      c.lostDie = some d ∧ c.fld F.ECC_STATUS.LOSS_CAUSE = cause ∧ c.fld F.DEV_STATE.DEGRADE = s.chip.fld F.DEV_STATE.DEGRADE ||| 2 ∧
      c.fld F.ECC_EVENTS.DIE_LOST = 1 ∧ Logged Code.PLAIN_DIE_LOST d c ∧ c = { s.chip with regs := c.regs, faults := c.faults } ∧
      FieldsBut (lossFields ++ logFields) s.chip c
    (∀ d, d < 10 →
      (s.chip.fld F.ECC_DIE_CFG.THRESH ≠ 0 → s.chip.fld F.ECC_DIE_CFG.THRESH ≤ s.chip.fld (F.ECC_DIE_CE.CURRENT.el d) →
        s.chip.dev.declares = true → s.chip.lostDie = none → Completes (.dieThreshold [d]) s (lost d 2)) ∧
      (s.chip.dev.declares = true → s.chip.lostDie = none → Completes (.channelLoss [d]) s (lost d 3)) ∧
      (s.chip.dev.open = true → s.chip.lostDie = none → Completes (.eccDeclare 0x4543 d) s (lost d 4)) ∧
      (s.chip.dev.portsAnswer = true → s.chip.dev.open = false ∨ s.chip.lostDie ≠ none → Completes (.eccDeclare 0x4543 d) s fun c =>
        c.fld F.ECC_EVENTS.DECLARE_REJECTED = 1 ∧ c = { s.chip with regs := c.regs } ∧
        FieldsBut [F.ECC_EVENTS.DECLARE_REJECTED] s.chip c) ∧
      (∀ l, s.chip.lostDie = some l → l ≠ d → s.chip.dev.declares = true → s.chip.dev.live = true →
        Completes (.channelLoss [d]) s fun c =>
          c.dev = .faultStop ∧ c.fld F.FLT_STOP.CODE = Code.PLAIN_DIE_SECOND ∧ Logged Code.PLAIN_DIE_SECOND d c ∧
          c.lostDie = some l) ∧
      (∀ e, d < e → e < 10 → s.chip.lostDie = none → s.chip.dev.declares = true → s.chip.dev.live = true →
        Completes (.channelLoss [e, d]) s fun c =>
          c.dev = .faultStop ∧ c.fld F.FLT_STOP.CODE = Code.PLAIN_DIE_SECOND ∧ Logged Code.PLAIN_DIE_SECOND d c ∧
          c.lostDie = none)) ∧
    (Completes .eccWindowEnd s fun c =>
      (∀ d, d < 10 → c.fld (F.ECC_DIE_CE.LAST.el d) = s.chip.fld (F.ECC_DIE_CE.CURRENT.el d) ∧
        c.fld (F.ECC_DIE_CE.CURRENT.el d) = 0) ∧
      c.eccWindow = max 1 (s.chip.fld F.ECC_DIE_CFG.WINDOW_MS) ∧ c = { s.chip with regs := c.regs, eccWindow := c.eccWindow } ∧
      FieldsBut ((List.range 10).map fun d => ⟨(F.ECC_DIE_CE.LAST.el d).a, 0, 32⟩) s.chip c) ∧
    (∀ k v rest, s.chip.mem.writeBack = (k, v) :: rest → Completes .ceWriteBack s fun c =>
      c.mem.byte k = v ∧ c.mem.check k = secEncode v false ∧ c.mem.writeBack = rest ∧
      (∀ a, a ≠ k → c.mem.byte a = s.chip.mem.byte a ∧ c.mem.check a = s.chip.mem.check a) ∧ c = { s.chip with mem := c.mem })

/-- R451 to R456: a background visit moves its pointer on, to 0 and one more pass at the memory's end; a scrubbed line goes back with its
map bit as it was. A triggered pass starts over the units that its registers name, unless they lie outside the memory or one is running,
visits them one by one and ends DONE, or ABORTED. R457: an interval that ends outside operation shows the error counts and starts them
again. -/
def Obligations.ScrubbersVisitTheMemories : Prop :=
  ∀ s : State,
    let moves (ptr passes : Fld) (units : Nat) (c : Chip) : Prop :=
      (s.chip.fld ptr + 1 < units → c.fld ptr = s.chip.fld ptr + 1 ∧ c.fld passes = s.chip.fld passes) ∧
      (units ≤ s.chip.fld ptr + 1 → c.fld ptr = 0 ∧ c.fld passes = (s.chip.fld passes + 1) % 256) ∧
      c.mem = s.chip.mem ∧ FieldsBut [ptr, passes] s.chip c
    let first : Nat := s.chip.fld F.SCRUB_T_START.VALUE / 64
    let count : Nat := s.chip.fld F.SCRUB_T_COUNT.VALUE % 0x2000000
    let ended (result : Nat) (c : Chip) : Prop :=
      c.scrub = none ∧ c.fld F.SCRUB_T_STATUS.BUSY = 0 ∧ c.fld F.SCRUB_T_STATUS.RESULT = result ∧
      c.fld F.SCRUB_EVENTS.DONE = 1
    (s.chip.dev.scrubs = true → s.chip.scrub = none →
      (s.chip.live F.SCRUB_CFG.PLAIN_S ≠ 0 → s.chip.mem.mapped (s.chip.fld F.SCRUB_BG_PLAIN.POINTER) = false →
        Completes (.scrubPlainVisit []) s (moves F.SCRUB_BG_PLAIN.POINTER F.SCRUB_BG_PLAIN.PASSES 16777216)) ∧
      (s.chip.live F.SCRUB_CFG.BASIN_S ≠ 0 → CleanAt s.chip.mem (64 * s.chip.fld F.SCRUB_BG_BASIN.POINTER) 64 →
        Completes (.scrubBasinVisit []) s (moves F.SCRUB_BG_BASIN.POINTER F.SCRUB_BG_BASIN.PASSES 786432))) ∧
    (∀ a bs rest, s.chip.mem.scrubBack = (a, bs) :: rest → bs.length = 64 → Completes .scrubWriteBack s fun c =>
      (∀ i, i < 64 → s.chip.lostDie ≠ some (i % 8) → c.mem.byte (memKey 8 (64 * a + i)) = bs.getD i 0) ∧
      c.mem.lines = s.chip.mem.lines ∧ c.mem.scrubBack = rest ∧ c.regs = s.chip.regs ∧
      (∀ k, k < memKey 8 (64 * a) ∨ memKey 8 (64 * a + 64) ≤ k → c.mem.byte k = s.chip.mem.byte k)) ∧
    (s.chip.dev.open = true → ∀ mem, mem < 2 →
      let room := if mem = 1 then 16777216 else 786432
      (∀ p, s.chip.scrub = some p → Completes (.scrubGo mem) s fun c =>
        c.scrub = some p ∧ c.fld F.SCRUB_EVENTS.BUSY_IGNORED = 1) ∧
      (s.chip.scrub = none → count ≠ 0 → first + count ≤ room → Completes (.scrubGo mem) s fun c =>
        c.scrub = some { plain := decide (mem = 1), next := first, left := count } ∧ c.fld F.SCRUB_T_STATUS.BUSY = 1 ∧
        c.fld F.SCRUB_T_STATUS.VISITED = 0 ∧ c.fld F.SCRUB_T_CE.VALUE = 0 ∧ c.fld F.SCRUB_T_UE.VALUE = 0 ∧
        c.fld F.SCRUB_T_SKIP.VALUE = 0 ∧ c.fld F.SCRUB_T_FIRST.VALUE = 0xFFFFFFFF ∧ c.fld F.SCRUB_T_LAST.VALUE = 0xFFFFFFFF ∧
        c.mem = s.chip.mem) ∧
      (s.chip.scrub = none → count = 0 ∨ room < first + count → Completes (.scrubGo mem) s fun c =>
        c.scrub = none ∧ c.fld F.SCRUB_T_STATUS.RESULT = 3)) ∧
    (∀ p, s.chip.scrub = some p → Completes (.scrubTVisit []) s fun c =>
      c.fld F.SCRUB_T_STATUS.VISITED = (s.chip.fld F.SCRUB_T_STATUS.VISITED + 1) % 2 ^ 25 ∧
      (1 < p.left → c.scrub = some { p with next := p.next + 1, left := p.left - 1 }) ∧ (p.left ≤ 1 → ended 1 c)) ∧
    (s.chip.dev.open = true → s.chip.scrub ≠ none → Completes .scrubAbort s fun c =>
      ended 2 c ∧ c = { s.chip with regs := c.regs, scrub := none }) ∧
    (s.chip.dev.portsAnswer = true → s.chip.dev.ticking = false → Completes .intervalEnd s fun c =>
      (∀ f, f ∈ errorCounts → c.fld f = min (2 ^ f.w - 1) (s.chip.tallied f) ∧ c.tallied f = 0) ∧ c.once = [] ∧
      c.stamp = s.chip.stamp + 1 ∧ c.mem = s.chip.mem ∧
      (s.chip.sched.before s.chip.now A.SCRUB_CFG = none → c.live F.SCRUB_CFG.PLAIN_S = s.chip.fld F.SCRUB_CFG.PLAIN_S) ∧
      FieldsBut errorCounts s.chip c)

/-! ### Lens driver, loop and privacy -/

/-- R501 to R507, R51, R53: what each command does to the bridge. ENABLE starts it from Z at code 0, or is rejected outside RUN and DEGRADED
or without VDDVCM; DISABLE ramps it off; a change of range keeps the current to the nearest code and starts a handover, or is rejected
where FINE cannot carry it; a target is stored; an update moves the position toward the target by at most the slew; tracking,
overcurrent and supply faults put the bridge in Z with their cause; a ramp's end does so too, and lets an enable that waits start it
again. -/
def Obligations.VcmCommandsDriveTheBridge : Prop :=
  ∀ s : State,
    let v := s.chip.loop.vcm
    let shown : List Fld := [F.VCM_STATUS.CODE, F.VCM_STATUS.SUPPLY_OK, F.VCM_STATUS.HANDOVER, F.VCM_STATUS.RAMPING,
      F.VCM_STATUS.RANGE, F.VCM_STATUS.DRIVING, F.VCM_TARGET_FORCE.UA]
    let frame (fs : List Fld) (c : Chip) : Prop :=
      c.loop.waiting = s.chip.loop.waiting ∧ c.mem = s.chip.mem ∧ FieldsBut (fs ++ shown) s.chip c
    let inZ (cause : Nat) (c : Chip) : Prop :=
      c.loop.vcm.bridge = .z ∧ c.loop.vcm.pos = 0 ∧ c.fld F.VCM_STATUS.Z_CAUSE = cause ∧ c.fld F.VCM_STATUS.DRIVING = 0
    (s.chip.dev.ticking = true → v.supplyOk = true → v.bridge = .z → Completes .vcmEnable s fun c =>
      c.loop.vcm.bridge = .driving ∧ c.loop.vcm.pos = 0 ∧ c.loop.vcm.coarse = s.chip.bit F.VCM_CTRL.RANGE ∧
      c.fld F.VCM_CTRL.ENABLE = 1 ∧ c.fld F.VCM_STATUS.DRIVING = 1 ∧
      frame [F.VCM_CTRL.ENABLE, F.LOOP_EVENTS.TARGET_CLAMP] c) ∧
    (s.chip.dev.portsAnswer = true → s.chip.dev.ticking = false ∨ v.supplyOk = false → Completes .vcmEnable s fun c =>
      c.loop = s.chip.loop ∧ c.fld F.LOOP_EVENTS.ENABLE_REJECTED = 1 ∧ Logged Code.VCM_ENABLE_REJECT noUnit c) ∧
    (s.chip.dev.open = true → v.bridge = .driving → Completes .vcmDisable s fun c =>
      c.loop.vcm = { v with bridge := .rampOff 1, handover := false } ∧ c.fld F.VCM_STATUS.Z_CAUSE = 1 ∧
      c.fld F.VCM_CTRL.ENABLE = 0 ∧ frame [F.VCM_CTRL.ENABLE, F.VCM_STATUS.Z_CAUSE] c) ∧
    (s.chip.dev.open = true → s.chip.fld F.LOOP_STATUS.VCM_OWNER = 0 → v.bridge = .driving →
      (v.coarse = false → Completes (.vcmRange true) s fun c =>
        c.loop.vcm = { v with coarse := true, handover := true,
                              pos := clampInt (-32768) 32767 (rne (v.code * 60000) 150000) * 150000 } ∧
        c.fld F.VCM_CTRL.RANGE = 1 ∧ frame [F.VCM_CTRL.RANGE] c) ∧
      (v.coarse = true → withinFine (v.code * 150000) = false → Completes (.vcmRange false) s fun c =>
        c.loop = s.chip.loop ∧ c.fld F.VCM_CTRL.RANGE = 0 ∧ c.fld F.LOOP_EVENTS.RANGE_REJECT = 1)) ∧
    (s.chip.dev.open = true → ∀ ua, -8388608 ≤ ua → ua < 8388608 → Completes (.vcmTargetWrite ua) s fun c =>
      c.sfld F.VCM_TARGET.UA = ua ∧ c.loop = s.chip.loop ∧ frame [F.VCM_TARGET.UA, F.LOOP_EVENTS.TARGET_CLAMP] c) ∧
    (v.bridge = .driving → v.handover = false →
      let goal := dacCode v.coarse s.chip.vcmTarget * fullScale v.coarse
      (Completes .vcmUpdate s fun c =>
        (goal ≤ v.pos + s.chip.slewStep → v.pos ≤ goal → c.loop.vcm.pos = goal) ∧
        (goal ≤ v.pos → v.pos ≤ goal + s.chip.slewStep → c.loop.vcm.pos = goal) ∧
        (v.pos + s.chip.slewStep < goal → c.loop.vcm.pos = v.pos + s.chip.slewStep) ∧
        (goal + s.chip.slewStep < v.pos → c.loop.vcm.pos = v.pos - s.chip.slewStep) ∧
        c.loop.vcm = { v with pos := c.loop.vcm.pos } ∧ frame [] c) ∧
      (Completes .vcmTrack s fun c => inZ 5 c ∧ Logged Code.VCM_TRACK noUnit c)) ∧
    (v.bridge = .driving →
      (Completes .vcmOvercurrent s fun c => inZ 6 c ∧ Logged Code.VCM_TRACK noUnit c) ∧
      (Completes .vddvcmLow s fun c => inZ 4 c ∧ c.loop.vcm.supplyOk = false ∧
        (v.used = true → v.supplyOk = true → Logged Code.VCM_SUPPLY noUnit c))) ∧
    (v.handover = true → Completes .handoverEnd s fun c =>
      c.loop.vcm = { v with handover := false } ∧ frame [F.LOOP_EVENTS.TARGET_CLAMP] c) ∧
    (v.bridge = .rampOff 2 ∨ v.bridge = .rampOff 3 → Completes .vcmRampEnd s fun c =>
      c.loop.vcm.pos = 0 ∧
      c.loop.vcm.bridge = if v.waiting = true ∧ s.chip.dev.ticking = true ∧ v.supplyOk = true then .driving else .z)

/-- R495 to R498, R489: the oldest waiting set is judged and its result shown. An applied one shows its frame, ends a run of held sets,
counts, and gives the exposure registers its last EXPOSURE element when the loop owns them; any other leaves lens, exposure and reports
alone and makes the run of held sets longer, and all but an empty one are recorded. -/
def Obligations.LoopSetsAreAppliedOrHeld : Prop :=
  ∀ (s : State) (w : LoopSet) (rest : List LoopSet), s.chip.dev.ticking = true → s.chip.loop.waiting = w :: rest →
    (w.result = 1 → Completes .loopApply s fun c =>
      c.loop.waiting = rest ∧ c.fld F.LOOP_STATUS.LAST_RESULT = 1 ∧ c.fld F.LOOP_FRAME.FRAME = w.frame % 2 ^ 32 ∧
      c.fld F.LOOP_EVENTS.APPLIED = 1 ∧ c.fld F.LOOP_STATUS.HELD_RUN = 0 ∧ c.fld F.LOOP_STATUS.STALLED = 0 ∧
      c.fld F.CTRL_COUNTS.APPLIED = (s.chip.fld F.CTRL_COUNTS.APPLIED + 1) % 65536 ∧
      (∀ e, w.last 2 = some e → s.chip.fld F.PIX_STATUS.EXP_OWNER = 1 →
        c.fld F.EXP_LONG.CYCLES = leAt e 4 4 % 2 ^ 24 ∧ c.fld F.EXP_SHORT.CYCLES = leAt e 8 4 % 2 ^ 24) ∧
      (∀ e, w.last 3 = some e → (w.frame, sliceOf e 4 12) ∈ c.loop.reports) ∧
      (w.last 1 = none → c.loop.vcm = s.chip.loop.vcm) ∧ c.mem = s.chip.mem) ∧
    (w.result ≠ 1 → Completes .loopApply s fun c =>
      c.loop = { s.chip.loop with waiting := rest } ∧ c.fld F.LOOP_STATUS.LAST_RESULT = w.result ∧
      c.fld F.LOOP_STATUS.HELD_RUN = min 255 (s.chip.fld F.LOOP_STATUS.HELD_RUN + 1) ∧
      c.fld F.CTRL_COUNTS.NOT_APPLIED = (if w.result = 5 then s.chip.fld F.CTRL_COUNTS.NOT_APPLIED
        else min 255 (s.chip.fld F.CTRL_COUNTS.NOT_APPLIED + 1)) ∧
      c = { s.chip with regs := c.regs, faults := c.faults, loop := c.loop } ∧
      FieldsBut ([F.LOOP_STATUS.LAST_RESULT, F.LOOP_STATUS.HELD_RUN, F.LOOP_STATUS.STALLED, F.LOOP_EVENTS.HELD,
        F.LOOP_EVENTS.STALLED, F.CTRL_COUNTS.NOT_APPLIED] ++ logFields) s.chip c)

/-- R510 to R515: two samples that agree the same way set the agreed state and end the run of disagreement; a disagreement counts, and after
DISC_TIME of them the fault latch sets. Privacy is in effect when the last agreed state is engaged or the latch is set, and STROBE falls
when it comes into effect. CLEAR with the key clears the latch after DISC_TIME agreeing samples, and is else rejected. DISC_TIME changes
only in HOLD. -/
def Obligations.PrivacyFollowsTheTwoInputs : Prop :=
  ∀ s : State,
    let eff (c : Chip) : Prop := c.fld F.PRIV_STATUS.EFFECTIVE = max (c.fld F.PRIV_STATUS.AGREED) (c.fld F.PRIV_STATUS.FAULT)
    let falls (c : Chip) : Prop := s.chip.fld F.PRIV_STATUS.EFFECTIVE = 0 → c.fld F.PRIV_STATUS.EFFECTIVE = 1 →
      c.pixel.strobe = false ∧ c.fld F.PRIV_EVENTS.ENGAGED = 1
    (s.chip.dev ≠ .off → ∀ a : Bool,
      (Completes (.privSample a (!a)) s fun c =>
        c.fld F.PRIV_STATUS.PIN_A = a.toNat ∧ c.fld F.PRIV_STATUS.PIN_B = (!a).toNat ∧
        c.fld F.PRIV_STATUS.AGREED = a.toNat ∧ c.fld F.PRIV_STATUS.DISC_COUNT = 0 ∧
        c.fld F.PRIV_STATUS.AGREE_RUN = min 255 (s.chip.fld F.PRIV_STATUS.AGREE_RUN + 1) ∧
        c.fld F.PRIV_STATUS.FAULT = s.chip.fld F.PRIV_STATUS.FAULT ∧ eff c ∧ falls c ∧ c.mem = s.chip.mem) ∧
      (Completes (.privSample a a) s fun c =>
        c.fld F.PRIV_STATUS.AGREED = s.chip.fld F.PRIV_STATUS.AGREED ∧ c.fld F.PRIV_STATUS.AGREE_RUN = 0 ∧
        c.fld F.PRIV_STATUS.DISC_COUNT = min 255 (s.chip.fld F.PRIV_STATUS.DISC_COUNT + 1) ∧
        c.fld F.PRIV_EVENTS.DISAGREE = 1 ∧
        c.fld F.PRIV_STATUS.FAULT = (if s.chip.discTime ≤ min 255 (s.chip.fld F.PRIV_STATUS.DISC_COUNT + 1) then 1
          else s.chip.fld F.PRIV_STATUS.FAULT) ∧ eff c ∧ falls c ∧ c.mem = s.chip.mem)) ∧
    (s.chip.dev.open = true →
      (s.chip.discTime ≤ s.chip.fld F.PRIV_STATUS.AGREE_RUN → Completes (.privClear 0x5052) s fun c =>
        c.fld F.PRIV_STATUS.FAULT = 0 ∧ c.fld F.PRIV_STATUS.AGREED = s.chip.fld F.PRIV_STATUS.AGREED ∧ eff c ∧ falls c) ∧
      (s.chip.fld F.PRIV_STATUS.AGREE_RUN < s.chip.discTime → Completes (.privClear 0x5052) s fun c =>
        c.fld F.PRIV_EVENTS.CLEAR_REJECTED = 1 ∧ c = { s.chip with regs := c.regs } ∧
        FieldsBut [F.PRIV_EVENTS.CLEAR_REJECTED] s.chip c)) ∧
    (∀ t, t < 256 →
      (s.chip.dev = .hold → Completes (.privCfgWrite t) s fun c =>
        c.fld F.PRIV_CFG.DISC_TIME = t ∧ c = { s.chip with regs := c.regs } ∧ FieldsBut [F.PRIV_CFG.DISC_TIME] s.chip c) ∧
      (s.chip.dev ≠ .hold → Completes (.privCfgWrite t) s fun c => c = s.chip))

/-! ### Host ports -/

/-- R523 to R526, R545: a READ outside the Glance window answers BUSY and starts a fetch, or answers READY with the block held for its
address; a READ of the window returns the front buffer's bytes at once. A WRITE of one whole register word is posted and acts as the
host's write of it. ENTER_8D and EXIT_8D act when XSPI_CS_N rises; a command that the mode does not know is counted and does nothing
else. R522: a fetch with no write before it brings the register's word, and a held block expires. A read of TIME_LO returns its low half
and holds the upper for the port. -/
def Obligations.XspiAnswersReadsAndTakesWrites : Prop :=
  ∀ s : State,
    let hostOnly (c : Chip) : Prop := c = { s.chip with host := c.host }
    (s.chip.dev.portsAnswer = true → s.chip.host.txn = none →
      (∀ a count, a < 2 ^ 32 → inGlance a = false →
        (s.chip.host.fetchX = none → Completes (.read a count) s fun c =>
          c.host.outX = [1, 0, 0, 0] ++ List.replicate count 0 ∧ c.host.txn = some (.read a count) ∧
          c.host.fetchX = some { addr := a, behind := s.chip.host.writes.length, held := none, returned := false } ∧
          hostOnly c) ∧
        (∀ f bs, s.chip.host.fetchX = some f → f.addr = a → f.held = some bs → Completes (.read a count) s fun c =>
          c.host.outX = [0, Byte.of bs.length, 0, 0] ++ padTo count (bs.take count) ∧
          c.host.fetchX = some { f with returned := true } ∧ hostOnly c)) ∧
      (∀ off count, off + count ≤ 0x2000 → 0 < count → s.chip.host.eightD = false → s.chip.host.fetchX = none →
        CleanAt s.chip.mem (memKey 9 (0x2000 * s.chip.host.front + off)) count →
        Completes (.read (0x20000 + off) count) s fun c =>
          c.host.outX = ((List.range count).map fun i => s.chip.mem.byte (memKey 9 (0x2000 * s.chip.host.front + off) + i)) ∧
          hostOnly c) ∧
      (∀ a bs, a % 4 = 0 → a < 0x2800 → bs.length = 4 → s.chip.host.writes.length < 256 → Completes (.write a bs) s fun c =>
        c = Chip.hostRegWrite { s.chip with host := { s.chip.host with
            txn := some .write, writes := s.chip.host.writes ++ [{ addr := a, sent := false }] } }
          s.fuses a (Word.of (leNat bs))) ∧
      (s.chip.host.eightD = false → Completes .enter8d s fun c =>
        c.host.txn = some (.mode true) ∧ c.host.eightD = false ∧ hostOnly c) ∧
      (s.chip.host.eightD = true → Completes .exit8d s fun c =>
        c.host.txn = some (.mode false) ∧ c.host.eightD = true ∧ hostOnly c) ∧
      (∀ op ext, op < 256 → ext < 256 → s.chip.commandGood op ext = false → Completes (.xspiBadCommand op ext) s fun c =>
        c.fld F.HIF_EVENTS.BAD_COMMAND = 1 ∧ c.mem = s.chip.mem ∧ c.host = { s.chip.host with txn := some .bad } ∧
        (s.chip.once.contains (Code.XSPI_BAD_COMMAND, noUnit) = false → Logged Code.XSPI_BAD_COMMAND noUnit c) ∧
        FieldsBut (F.HIF_EVENTS.BAD_COMMAND :: logFields) s.chip c)) ∧
    (Completes .xspiCsRise s fun c =>
      c.host.txn = none ∧ (∀ b, s.chip.host.txn = some (.mode b) → c.host.eightD = b) ∧
      ((∀ b, s.chip.host.txn ≠ some (.mode b)) → c.host.eightD = s.chip.host.eightD) ∧ hostOnly c) ∧
    (∀ (p : Port) (f : Fetch), s.chip.fetchOf p = some f →
      (s.chip.dev.portsAnswer = true → f.held = none → f.behind = 0 → s.chip.host.txn = none → s.chip.host.stretch = none →
        f.addr < 0x20000 → f.addr % 64 = 60 → f.addr ∉ [A.SRV_FIFO_DATA, A.TIME_LO, A.TIME_HI] →
        Completes (.fetchComplete p) s fun c =>
          c.fetchOf p = some { f with held := some (leBytes 4 (s.chip.readWord f.addr).toNat) } ∧ hostOnly c) ∧
      (f.held ≠ none → Completes (.fetchExpire p) s fun c => c.fetchOf p = none ∧ hostOnly c)) ∧
    (s.chip.dev.portsAnswer = true → ∀ p : Port, Completes (.timeLoRead p) s fun c =>
      c.heldTime p = some (Word.of (s.chip.timebase / 0x100000000)) ∧
      (match p with | .xspi => c.host.outX | .i3c => c.host.outI) = leBytes 4 (s.chip.timebase % 0x100000000) ∧ hostOnly c)

/-- R17, R658: in the blocks TICK, FRONT, EGRESS and POWER, but for OVERRUN_LOG, a written word takes its RW bits from the write, clears its
W1C bits where the write has 1, and keeps every other bit; no other word changes, and a write to a reserved word changes none. R521:
with 256 writes waiting, one more is discarded and recorded. R408, R418: a host write to the Basins stores its bytes, in Basins 0 to 3
only in HOLD; the first byte for a Plain line opens the line buffer, and the last one missing writes the line. R416: a window read
returns the bytes, and 0xFF for a never-written Plain line. -/
def Obligations.HostReachesRegistersAndMemories : Prop :=
  ∀ s : State,
    let posted (a : Nat) (c : Chip) : Prop := c.host.writes = s.chip.host.writes ++ [{ addr := a, sent := false }]
    let block (a : Nat) : Prop := (0x1000 ≤ a ∧ a < 0x2000 ∧ a ≠ A.OVERRUN_LOG) ∨ (0x6000 ≤ a ∧ a < 0x7000) ∨
      (0x13000 ≤ a ∧ a < 0x14000) ∨ (0x16000 ≤ a ∧ a < 0x17000)
    (s.chip.dev.open = true → s.chip.host.writes.length < 256 → ∀ a v, a % 4 = 0 → block a →
      (∀ r, rowOf a = some r → Completes (.registerWrite a v) s fun c =>
        (∀ i, i < 32 → (c.word a).getLsbD i = if r.rw.testBit i then v.getLsbD i
          else (s.chip.word a).getLsbD i && !(r.w1c.testBit i && v.getLsbD i)) ∧
        (∀ b, b ≠ a → c.word b = s.chip.word b) ∧ posted a c ∧
        c = { s.chip with regs := c.regs, host := c.host,
                          sched := { s.chip.sched with written := c.sched.written, writtenAt := c.sched.writtenAt } }) ∧
      (rowOf a = none → Completes (.registerWrite a v) s fun c => posted a c ∧ c = { s.chip with host := c.host })) ∧
    (s.chip.dev.portsAnswer = true → s.chip.host.writes.length = 256 → ∀ a v, a % 4 = 0 → a < 2 ^ 32 →
      Completes (.registerWrite a v) s fun c =>
        c.fld F.HIF_EVENTS.WRITE_OVERFLOW = 1 ∧ c.host = s.chip.host ∧ c.mem = s.chip.mem ∧
        FieldsBut (F.HIF_EVENTS.WRITE_OVERFLOW :: logFields) s.chip c) ∧
    (s.chip.windowWritable = true → s.chip.host.writes.length < 256 →
      (∀ off bs, 0 < bs.length → off % 64 + bs.length ≤ 64 → off + bs.length ≤ 0x3000000 →
        (0x200000 ≤ off ∨ s.chip.dev = .hold → Completes (.hostBasinWrite off bs) s fun c =>
          (∀ i b, bs[i]? = some b → c.mem.byte (off + i) = b ∧ c.mem.check (off + i) = secEncode b false) ∧
          (∀ a, a < off ∨ off + bs.length ≤ a → c.mem.byte a = s.chip.mem.byte a) ∧ posted (0x10000000 + off) c ∧
          c.regs = s.chip.regs)) ∧
      (∀ off b, off < 0x40000000 →
        (s.chip.mem.hostLine = none → Completes (.hostPlainWrite off [b]) s fun c =>
          c.mem.hostLine = some (off / 64, (List.replicate 64 none).set (off % 64) (some b)) ∧
          c.word A.HOSTWIN_LINE = Word.of (off / 64 * 64) ∧ c.fld F.HOSTWIN_STATUS.OPEN = 1 ∧
          c.fld F.HOSTWIN_STATUS.BYTES = 1 ∧ c.mem = { s.chip.mem with hostLine := c.mem.hostLine }) ∧
        (∀ full : List Byte, full.length = 64 → full[off % 64]? = some b → s.chip.lostDie = none →
          s.chip.mem.hostLine = some (off / 64, (full.map some).set (off % 64) none) →
          Completes (.hostPlainWrite off [b]) s fun c =>
            (∀ i x, full[i]? = some x → c.mem.byte (memKey 8 (off / 64 * 64 + i)) = x) ∧ c.mem.mapped (off / 64) = true ∧
            c.mem.hostLine = none ∧ c.fld F.HOSTWIN_STATUS.OPEN = 0))) ∧
    (s.chip.windowLifecycle = true → s.chip.dev.portsAnswer = true → s.chip.dev ≠ .hold → s.chip.host.writes.length < 256 →
      ∀ off bs, 0 < bs.length → off % 64 + bs.length ≤ 64 → off < 0x200000 → Completes (.hostBasinWrite off bs) s fun c =>
        c.mem = s.chip.mem ∧ c.fld F.MEM_EVENTS.HOST_FORBIDDEN = 1 ∧ Logged Code.HOSTWIN_FORBIDDEN noUnit c) ∧
    (s.chip.dev.portsAnswer = true → ∀ off count, 0 < count → off % 64 + count ≤ 64 →
      (s.chip.windowReadable = true → off + count ≤ 0x3000000 → CleanAt s.chip.mem off count →
        Completes (.hostWindowRead (0x10000000 + off) count) s fun c =>
          c.host.outX = (List.range count).map (fun i => s.chip.mem.byte (off + i)) ∧ c = { s.chip with host := c.host }) ∧
      (s.chip.windowReadable = true → off + count ≤ 0x40000000 → s.chip.mem.mapped (off / 64) = false →
        Completes (.hostWindowRead (0x40000000 + off) count) s fun c =>
          c.host.outX = List.replicate count 0xFF ∧ c.fld F.MEM_EVENTS.NEVER_WRITTEN = 1 ∧ c.mem = s.chip.mem) ∧
      (s.chip.windowReadable = false → off + count ≤ 0x3000000 → Completes (.hostWindowRead (0x10000000 + off) count) s fun c =>
        c.host.outX = List.replicate count 0 ∧ c = { s.chip with host := c.host }))

/-- R658: in every state in which the port answers, a word of the register region that the index does not list and that lies outside the
push aperture reads 0, with no side effect, and a write of it, by the host or over xSPI, does nothing but take its place in the write
queue; no fault is recorded. -/
def Obligations.ReservedWordsReadZeroAndIgnoreWrites : Prop :=
  ∀ (s : State) (a : Nat), s.chip.dev.portsAnswer = true → a % 4 = 0 → a < 0x20000 → inAperture a = false → rowOf a = none →
    (∀ p : Port, s.chip.sampleWord p a = (0, s.chip)) ∧
    (∀ (p : Port) (f : Fetch), s.chip.fetchOf p = some f → f.addr = a → f.held = none → f.behind = 0 →
      s.chip.host.txn = none → s.chip.host.stretch = none → Completes (.fetchComplete p) s fun c =>
        ∃ bs, c.fetchOf p = some { f with held := some bs } ∧ bs.take 4 = [0, 0, 0, 0] ∧
          (a % 64 = 60 → (∀ b, c.word b = s.chip.word b) ∧ c.faults = s.chip.faults ∧ c.mem = s.chip.mem)) ∧
    (s.chip.host.writes.length < 256 →
      let queued (t : Option Txn) : Chip := { s.chip with host := { s.chip.host with
        txn := t, writes := s.chip.host.writes ++ [{ addr := a, sent := false }] } }
      (∀ v, Completes (.registerWrite a v) s fun c => c = queued s.chip.host.txn) ∧
      (s.chip.host.txn = none → ∀ bs : List Byte, bs.length = 4 → Completes (.write a bs) s fun c => c = queued (some .write)))

/-- R531 to R534: at the dynamic address, an I3C write of four address bytes sets the pointer and starts the fetch; a read returns the held
block's bytes from the pointer, or is NACKed until they are there. While none is assigned, an I²C transfer at the static address that the
strap selects does the same and stretches SCL meanwhile, for 100 µs at most, after which 0xFF bytes are sent. At any other address
nothing is acknowledged. -/
def Obligations.I3cTransfersUseThePointer : Prop :=
  ∀ s : State, s.chip.i3cUp = true →
    let hostOnly (c : Chip) : Prop := c = { s.chip with host := c.host }
    let fresh (a : Nat) : Fetch := { addr := a, behind := s.chip.host.writes.length, held := none, returned := false }
    let unanswered (c : Chip) : Prop := c.host.outI = [] ∧ c.host.nack = true ∧ hostOnly c
    let own : Nat := s.chip.fld F.I3C_STATUS.DA
    let static : Nat := if s.chip.fld F.STRAPS.ADDR_SEL = 0 then 0x36 else 0x37
    (s.chip.i3cAddressed = true →
      (∀ bs, bs.length = 4 → inGlance (beNat bs) = false → s.chip.host.fetchI = none → Completes (.i3cPrivateWrite (own, bs)) s fun c =>
        c.host.pointer = beNat bs ∧ c.host.fetchI = some (fresh (beNat bs)) ∧ c.host.nack = false ∧ hostOnly c) ∧
      (∀ f count, inGlance s.chip.host.pointer = false → s.chip.host.fetchI = some f → f.addr = s.chip.host.pointer →
        count < 64 - s.chip.host.pointer % 64 →
        (∀ bs, f.held = some bs → Completes (.i3cPrivateRead (own, count)) s fun c =>
          c.host.outI = bs.take count ∧ c.host.nack = false ∧ c.host.pointer = s.chip.host.pointer ∧ hostOnly c) ∧
        (f.held = none → Completes (.i3cPrivateRead (own, count)) s fun c =>
          unanswered c ∧ c.host.pointer = s.chip.host.pointer))) ∧
    (∀ a, a < 128 → s.chip.i3cAddressed = false ∨ a ≠ own →
      (∀ bs, Completes (.i3cPrivateWrite (a, bs)) s unanswered) ∧ (∀ count, Completes (.i3cPrivateRead (a, count)) s unanswered)) ∧
    (∀ a bs count, a < 128 → s.chip.i3cAddressed = true ∨ a ≠ static → Completes (.i2cTransfer (a, bs) count) s unanswered) ∧
    (s.chip.i3cAddressed = false → ∀ bs count, bs.length = 4 → inGlance (beNat bs) = false → 0 < count →
      count < 64 - beNat bs % 64 →
      (s.chip.host.fetchI = none → Completes (.i2cTransfer (static, bs) count) s fun c =>
        c.host.pointer = beNat bs ∧ c.host.fetchI = some (fresh (beNat bs)) ∧ c.host.stretch = some count ∧ c.host.outI = [] ∧
        hostOnly c) ∧
      (∀ f x, s.chip.host.fetchI = some f → f.addr = beNat bs → f.held = some x → count ≤ x.length →
        Completes (.i2cTransfer (static, bs) count) s fun c =>
          c.host.outI = x.take count ∧ c.host.stretch = none ∧ hostOnly c)) ∧
    (∀ n, s.chip.host.stretch = some n → n ≤ 64 - s.chip.host.pointer % 64 → Completes .stretchTimeout s fun c =>
      c.host.outI = s.chip.host.outI ++ List.replicate n 0xFF ∧ c.host.stretch = none ∧
      c.fld F.HIF_EVENTS.STRETCH_TIMEOUT = 1 ∧ c = { s.chip with host := c.host, regs := c.regs } ∧
      FieldsBut [F.HIF_EVENTS.STRETCH_TIMEOUT] s.chip c)

/-- R531 to R536: what each common command code does; SETDASA is for the static address that the strap selects. R535, R536: a bit of
HIF_IRQ_STATUS AND HIF_IRQ_EN that a command makes 1 asks for an in-band interrupt until one is delivered; delivered and acknowledged,
it brings the lowest requesting bit and HIF_IRQ_STATUS, clears no status bit, and covers every change before it. -/
def Obligations.I3cCommonCommands : Prop :=
  ∀ s : State, s.chip.i3cUp = true →
    let hostOnly (c : Chip) : Prop := c = { s.chip with host := c.host }
    let regsOnly (fs : List Fld) (c : Chip) : Prop := c = { s.chip with host := c.host, regs := c.regs } ∧ FieldsBut fs s.chip c
    let assigned (da : Nat) (c : Chip) : Prop := c.fld F.I3C_STATUS.DA = da ∧ c.fld F.I3C_STATUS.DA_VALID = 1 ∧
      regsOnly [F.I3C_STATUS.DA, F.I3C_STATUS.DA_VALID] c
    let cleared (c : Chip) : Prop := c.fld F.I3C_STATUS.DA = 0 ∧ c.fld F.I3C_STATUS.DA_VALID = 0
    let identity : List Byte := beBytes 6 s.chip.pid
    let static : Nat := if s.chip.fld F.STRAPS.ADDR_SEL = 0 then 0x36 else 0x37
    (∀ bits, bits < 256 →
      (Completes (.enec bits) s fun c =>
        c.fld F.I3C_STATUS.IBI_EN = (if bits.testBit 0 then 1 else s.chip.fld F.I3C_STATUS.IBI_EN) ∧
        regsOnly [F.I3C_STATUS.IBI_EN] c) ∧
      (Completes (.disec bits) s fun c =>
        c.fld F.I3C_STATUS.IBI_EN = (if bits.testBit 0 then 0 else s.chip.fld F.I3C_STATUS.IBI_EN) ∧
        regsOnly [F.I3C_STATUS.IBI_EN] c)) ∧
    (Completes .rstdaa s fun c => cleared c ∧ regsOnly [F.I3C_STATUS.DA, F.I3C_STATUS.DA_VALID] c) ∧
    (∀ da, da < 128 →
      (s.chip.i3cAddressed = false →
        (Completes (.entdaa da) s fun c => assigned da c ∧ c.host.outI = identity ++ [0x06, 0x00]) ∧
        Completes (.setdasa (static, da)) s (assigned da)) ∧
      (s.chip.i3cAddressed = true → Completes (.setnewda da) s (assigned da) ∧
        Completes (.entdaa da) s fun c => c = s.chip) ∧
      (∀ a, a < 128 → s.chip.i3cAddressed = true ∨ a ≠ static → Completes (.setdasa (a, da)) s fun c =>
        c.host.nack = true ∧ hostOnly c)) ∧
    (∀ n, n < 65536 →
      (Completes (.setmwl n) s fun c => c = { s.chip with host := { s.chip.host with mwl := n } }) ∧
      (Completes (.setmrl n) s fun c => c = { s.chip with host := { s.chip.host with mrl := n } })) ∧
    (∀ (i : Instr) (bs : List Byte), (i, bs) ∈ [(Instr.getmwl, beBytes 2 s.chip.host.mwl),
        (.getmrl, beBytes 2 s.chip.host.mrl ++ [5]), (.getpid, identity), (.getbcr, [0x06]), (.getdcr, [0x00]),
        (.getstatus, [0x00, if s.chip.nfaultLow then 0x40 else 0x00])] →
      (s.chip.i3cAddressed = true → Completes i s fun c => c.host.outI = bs ∧ c.host.nack = false ∧ hostOnly c) ∧
      (s.chip.i3cAddressed = false → Completes i s fun c => c.host.nack = true ∧ hostOnly c)) ∧
    (Completes .enthdr s fun c => c = { s.chip with host := { s.chip.host with inHdr := true } } ∧ c.i3cUp = false) ∧
    (Completes .hdrExitPattern s fun c => c = { s.chip with host := { s.chip.host with inHdr := false } } ∧ c.i3cUp = true) ∧
    (Completes .targetReset s fun c => cleared c ∧ c.fld F.I3C_STATUS.IBI_EN = 1 ∧
      regsOnly [F.I3C_STATUS.DA, F.I3C_STATUS.DA_VALID, F.I3C_STATUS.IBI_EN] c) ∧
    (∀ code, code < 256 → Completes (.unsupportedCcc code) s fun c => c.host.nack = true ∧ hostOnly c) ∧
    (let w := s.chip.irqStatusWord &&& s.chip.word A.HIF_IRQ_EN
     (s.chip.i3cAddressed = true → s.chip.fld F.I3C_STATUS.IBI_EN = 1 → s.irqDue = true → w ≠ 0 →
       ∃ t, exec (.ibiRequest true) s = .next t ∧ t = { s with chip := t.chip, irqDue := false } ∧ hostOnly t.chip ∧
         ∃ i, i < 32 ∧ w.getLsbD i = true ∧ (∀ j, j < i → w.getLsbD j = false) ∧
           t.chip.host.outI = Byte.of i :: leBytes 4 s.chip.irqStatusWord.toNat) ∧
     exec (.ibiRequest false) s = .next s ∧
     (∀ i t, exec i s = .next t → t.chip.dev.portsAnswer = true →
       s.irqDue = true ∨ (∃ k, (t.chip.irqStatusWord &&& t.chip.word A.HIF_IRQ_EN).getLsbD k = true ∧ w.getLsbD k = false) →
       t.irqDue = true ∨ i = .ibiRequest true))

/-! ### CSI-2, timebase and image loading -/

/-- R537 to R542: START in RUN or DEGRADED with the outputs off starts them with the lanes, the rate, the clock mode and the periodic deskew
that CSI_CFG then holds; elsewhere it is rejected. STOP takes them off; a PLL_C that does not lock returns them to OFF and is recorded;
lock and deskew bring RUNNING. The next packet of the frame in front goes out, a long one as its header, payload and CRC-16, after a
deskew burst where one is due; the last one counts the frame. R546: SET_NOW loads the timebase, ARM and DISARM switch ARMED. -/
def Obligations.CsiOutputsAndTimebase : Prop :=
  ∀ s : State,
    let st : Nat := s.chip.fld F.CSI_STATUS.STATE
    let csiFields : List Fld := [F.CSI_STATUS.STATE, F.CSI_STATUS.LANES, F.CSI_STATUS.MBPS, F.CSI_CUT_LINES.COUNT]
    (s.chip.dev.ticking = true → st = 0 → Completes .csiStart s fun c =>
      c.fld F.CSI_STATUS.STATE = 1 ∧ c.fld F.CSI_STATUS.LANES = min 4 (max 1 (s.chip.fld F.CSI_CFG.LANES)) ∧
      c.fld F.CSI_STATUS.MBPS = min 2500 (max 160 (s.chip.fld F.CSI_CFG.LANE_MBPS / 20 * 20)) ∧
      c.fld F.CSI_CUT_LINES.COUNT = 0 ∧ c.host.clkCont = s.chip.bit F.CSI_CFG.CLK_CONT ∧
      c.host.deskewOn = s.chip.bit F.CSI_CFG.PERIODIC_DESKEW ∧
      c = { s.chip with regs := c.regs, host := { s.chip.host with clkCont := c.host.clkCont, deskewOn := c.host.deskewOn, laneFloor := c.host.laneFloor } } ∧
      c.host.laneFloor = min (c.fld F.CSI_STATUS.LANES) s.chip.host.laneFloor ∧ FieldsBut csiFields s.chip c) ∧
    (s.chip.dev.portsAnswer = true → s.chip.dev.ticking = false ∨ st ≠ 0 → Completes .csiStart s fun c =>
      c.fld F.CSI_EVENTS.START_REJECTED = 1 ∧ c = { s.chip with regs := c.regs } ∧
      FieldsBut [F.CSI_EVENTS.START_REJECTED, F.HIF_IRQ_STATUS.CSI] s.chip c) ∧
    (s.chip.dev.open = true → Completes .csiStop s fun c =>
      c.fld F.CSI_STATUS.STATE = 0 ∧ c.fld F.CLK_STATUS.PLL_C_LOCK = 0 ∧ c.host.csi = [] ∧
      FieldsBut [F.CSI_STATUS.STATE, F.CLK_STATUS.PLL_C_LOCK] s.chip c) ∧
    (st = 1 →
      (Completes .pllCLockTimeout s fun c =>
        c.fld F.CSI_STATUS.STATE = 0 ∧ c.fld F.CSI_EVENTS.START_REJECTED = 1 ∧ Logged Code.PLL_UNLOCK noUnit c ∧
        c.dev = s.chip.dev) ∧
      (Completes .csiDeskewDone s fun c =>
        c.fld F.CSI_STATUS.STATE = 2 ∧ c.fld F.CLK_STATUS.PLL_C_LOCK = 1 ∧
        c.host.deskew = (if 1500 ≤ s.chip.fld F.CSI_STATUS.MBPS then 32768 else 0) ∧
        c = { s.chip with regs := c.regs, host := { s.chip.host with deskew := c.host.deskew } } ∧
        FieldsBut [F.CSI_STATUS.STATE, F.CLK_STATUS.PLL_C_LOCK] s.chip c)) ∧
    (st = 2 → ∀ f rest, s.chip.host.csi = f :: rest →
      (∀ p ps, f.front = p :: ps → Completes .csiPacket s fun c =>
        c = { s.chip with host := { s.chip.host with
              packet := some p, wire := c.host.wire, deskew := c.host.deskew, csi := { f with front := ps } :: rest } } ∧
        c.host.deskew = (if p.vc = 0 ∧ p.dt = 0 ∧ s.chip.host.deskewOn = true ∧ 1500 ≤ s.chip.fld F.CSI_STATUS.MBPS then 2048 else 0) ∧
        (0x10 ≤ p.dt → c.host.wire = p.header ++ p.payload ++ leBytes 2 (crc16 p.payload)) ∧
        (p.dt < 0x10 → c.host.wire = p.header) ∧ p.header.length = 4) ∧
      (f.front = [] → f.crops = [] →
        (f.back = none → Completes .csiPacket s fun c =>
          c.host.packet = some (frameEnd 2 f.frame) ∧ c.host.csi = { f with back := some f.lastPackets } :: rest) ∧
        (∀ p, f.back = some [p] → Completes .csiPacket s fun c =>
          c.host.packet = some p ∧ c.host.csi = rest ∧
          c.fld F.CSI_FRAMES.COUNT = (s.chip.fld F.CSI_FRAMES.COUNT + 1) % 2 ^ F.CSI_FRAMES.COUNT.w))) ∧
    (s.chip.dev.open = true →
      (Completes .setNow s fun c =>
        c.timebase = s.chip.fld F.TIME_SET_LO.NS + s.chip.fld F.TIME_SET_HI.NS * 2 ^ 32 ∧
        c.fld F.TIME_STATUS.LAST_SRC = 0 ∧ c.fld F.HIF_IRQ_STATUS.TIME = 1 ∧
        c.fld F.TIME_STATUS.EPOCH = (s.chip.fld F.TIME_STATUS.EPOCH + 1) % 2 ^ F.TIME_STATUS.EPOCH.w ∧
        FieldsBut [F.TIME_STATUS.EPOCH, F.TIME_STATUS.LAST_SRC, F.HIF_IRQ_STATUS.TIME] s.chip c) ∧
      (Completes .arm s fun c => c.fld F.TIME_STATUS.ARMED = 1 ∧ c = { s.chip with regs := c.regs } ∧
        FieldsBut [F.TIME_STATUS.ARMED] s.chip c) ∧
      (Completes .disarm s fun c => c.fld F.TIME_STATUS.ARMED = 0 ∧ c = { s.chip with regs := c.regs } ∧
        FieldsBut [F.TIME_STATUS.ARMED] s.chip c))

/-- R180 to R193: START with no load and no programming in progress opens a push, after zeroing the SRAMs in HOLD; bytes are appended and
checked as they come, and a wrong magic fails the load; ABORT and a time-out fail it too. A flash trailer that matches the header is
kept. VERIFY and ADMIT go on to the next phase or fail the load, and an admitted image that is not hot shows its identity at once; the
fills bring IMAGE_OK with the image in force, or HOT_READY with the hot image; the clean-up ends BUSY. At the swap edge the hot image
comes into force. -/
def Obligations.ImagesAreLoadedCheckedAndSwapped : Prop :=
  ∀ s : State,
    let failed (l : Loading) (code : Nat) (c : Chip) : Prop :=
      (∃ m, c.loader.load = some m ∧ m.failed = some code ∧ m.source = l.source) ∧ c.fld F.IMG_STATUS.ERROR = code
    let pushing (l : Loading) : Prop := s.chip.loader.load = some l ∧ l.failed = none ∧ l.source = .push
    (s.chip.dev.open = true → s.chip.lifecycle ≠ 5 → s.chip.loader.load = none → s.chip.otp.job = none →
      Completes .start s fun c =>
        (∃ l, c.loader.load = some l ∧ l.source = .push ∧ l.hot = s.chip.dev.ticking ∧ l.bytes = [] ∧ l.failed = none) ∧
        c.fld F.IMG_STATUS.BUSY = 1 ∧ c.fld F.IMG_STATUS.PHASE = 1 ∧ c.fld F.IMG_STATUS.ERROR = 0 ∧
        c.fld F.IMG_PUSH_COUNT.BYTES = 0 ∧
        (s.chip.dev = .hold → ∀ k, k < memKey 8 0 → c.mem.byte k = 0 ∧ c.mem.check k = 0)) ∧
    (∀ l, pushing l → l.complete = false →
      (s.chip.dev.open = true → Completes .abort s (failed l Ld.ABORTED)) ∧
      (s.chip.fld F.IMG_TIMEOUT.MS ≠ 0 → Completes .pushTimeout s (failed l Ld.TIMEOUT)) ∧
      (∀ b, l.bytes.length + 1 < 256 → l.bytes.length + 1 ≠ 4 → l.bytes.length + 1 ≠ 12 → Completes (.pushByte b) s fun c =>
        c.loader = { s.chip.loader with load := some { l with bytes := l.bytes ++ [b] } } ∧
        c.fld F.IMG_PUSH_COUNT.BYTES = (s.chip.fld F.IMG_PUSH_COUNT.BYTES + 1) % 2 ^ 32 ∧ c.mem = s.chip.mem ∧
        FieldsBut [F.IMG_PUSH_COUNT.BYTES, F.DEV_STATE.IMAGE_OK, F.DEV_STATE.HOLD_REASON] s.chip c) ∧
      (∀ b, l.bytes.length + 1 = 4 → l.bytes ++ [b] ≠ [0x45, 0x56, 0x53, 0x49] →
        Completes (.pushByte b) s (failed l Ld.NO_MAGIC))) ∧
    (∀ l bs, s.chip.loader.load = some l → l.failed = none → l.complete = false → l.source = .flashA → l.bytes ≠ [] →
      l.trailer = [] → bs.length = 16 →
      (trailerOk l.bytes bs = true → Completes (.flashReadDone bs) s fun c =>
        c = { s.chip with loader := { s.chip.loader with load := some { l with trailer := bs } } }) ∧
      (trailerOk l.bytes bs = false → Completes (.flashReadDone bs) s fun c =>
        (∃ m, c.loader.load = some m ∧ m.source = .flashB ∧ m.bytes = [] ∧ m.failed = none) ∧
        c.fld F.IMG_FLASH.ERR_A = Ld.BAD_TRAILER ∧ c.fld F.IMG_FLASH.B_TRIED = 1)) ∧
    (∀ l, s.chip.inPhase 3 = some l →
      (signatureOk l.bytes = true → Completes .verifyDone s fun c =>
        c.fld F.IMG_STATUS.PHASE = 4 ∧ c = { s.chip with regs := c.regs } ∧ FieldsBut [F.IMG_STATUS.PHASE] s.chip c) ∧
      (signatureOk l.bytes = false → l.source = .push → Completes .verifyDone s (failed l Ld.SIGNATURE))) ∧
    (∀ l, s.chip.inPhase 4 = some l →
      (s.chip.admission l.image l.hot = none → Completes .admitDone s fun c =>
        c.fld F.IMG_STATUS.PHASE = 5 ∧ c.mem = s.chip.mem ∧ (l.hot = true → FieldsBut [F.IMG_STATUS.PHASE] s.chip c) ∧
        (l.hot = false → c.word A.IMG_ID = Word.of l.image.imageId ∧ c.fld F.TICK_STATUS.RATE = l.image.primary.rate % 8)) ∧
      (∀ e, s.chip.admission l.image l.hot = some e → l.source = .push → Completes .admitDone s fun c =>
        ∃ m, c.loader.load = some m ∧ m.failed = some e.1)) ∧
    (∀ l, s.chip.inPhase 5 = some l → Completes .loadFillDone s fun c =>
      c.loader.load = none ∧ c.fld F.IMG_STATUS.BUSY = 0 ∧ c.fld F.IMG_STATUS.PHASE = 6 ∧
      (l.hot = true → c.loader.hot = some l.image ∧ c.fld F.IMG_STATUS.HOT_READY = 1 ∧ c.loader.image = s.chip.loader.image) ∧
      (l.hot = false → c.loader.image = some l.image ∧ c.fld F.DEV_STATE.IMAGE_OK = 1 ∧ c.fld F.DEV_STATE.HOLD_REASON = 0)) ∧
    (∀ l, s.chip.loader.load = some l → l.failed ≠ none → Completes .loadCleanupDone s fun c =>
      c.loader = { s.chip.loader with load := none } ∧ c.fld F.IMG_STATUS.BUSY = 0 ∧ c.mem = s.chip.mem ∧
      FieldsBut [F.IMG_STATUS.BUSY] s.chip c) ∧
    (∀ im, s.chip.loader.hot = some im → s.chip.swapDue = true → s.chip.sched.edgeHalf = false → s.chip.sched.drain = false →
      Completes .hotSwap s fun c =>
        c.loader.image = some im ∧ c.loader.hot = none ∧ c.loader.old = s.chip.loader.image ∧ c.sched.swapTick = true ∧
        c.fld F.IMG_STATUS.HOT_READY = 0)

/-! ### OTP programming, recovery and supplies -/

/-- R596 to R604: an OTP_CTRL request whose conditions of R596 hold starts its operation over the fuses that it is to burn, or ends at once
when none is left; any other shows the first condition that fails and burns nothing. A margin scan reports its counts; ABORT stops after
the pulse in progress. -/
def Obligations.OtpRequestsStartOrAreRefused : Prop :=
  ∀ (s : State) (region enc : Nat), s.chip.dev.portsAnswer = true → region < 16 → enc < 4 →
    let fz := s.fuses
    let starts (kind : OtpKind) (fuses : List Nat) (c : Chip) : Prop :=
      let todo := fuses.filter fun a => !fz.strong a
      (todo ≠ [] → c.otp = { s.chip.otp with job := some { kind := kind, todo := todo, tries := 0, stopping := false } } ∧
        c.fld F.OTP_STATUS.BUSY = 1 ∧ c.fld F.OTP_PROGRESS.TOTAL = todo.length % 65536 ∧ c.fld F.OTP_PROGRESS.DONE = 0) ∧
      (todo = [] → c.otp.job = none ∧ c.fld F.OTP_STATUS.BUSY = 0 ∧ c.fld F.OTP_STATUS.RESULT = 1)
    let ok (op : Nat) : Prop := s.chip.otpRefusal 0x4F54 op region enc = 0
    (∀ (op : Nat) (i : Instr), (op, i) ∈ [(1, Instr.program 0x4F54 region enc), (2, .lockWrite 0x4F54 region),
        (3, .lockRead 0x4F54 region), (6, .marginScan 0x4F54 region), (7, .reburn 0x4F54 region)] → op = 1 ∨ enc = 0 →
      let why := s.chip.otpRefusal 0x4F54 op region enc
      why ≠ 0 → Completes i s fun c =>
        c.fld F.OTP_STATUS.RESULT = why ∧ c.fld F.OTP_EVENTS.FAIL = 1 ∧ c.otp = s.chip.otp ∧ c.mem = s.chip.mem) ∧
    (let fuses := programFuses region enc s.chip.programBit;
      ok 1 → otpSeal fz.burned region = false → 32 * max 1 (s.chip.fld F.OTP_PARAM.LENGTH) ≤ bodyCapacity region enc →
      (region = 5 → defectFormat enc s.chip.programBit = true) →
      (∀ e ∈ fz.burned, e.2 = true → otpBase region ≤ e.1 → e.1 < otpBody region + otpBodyBits region →
        e.1 ∈ fuses ∨ e.1 ∈ wlCopies region ∨ e.1 ∈ rlCopies region) →
      Completes (.program 0x4F54 region enc) s (starts (.ctrl 1 region) fuses)) ∧
    (enc = 0 →
      (ok 2 → otpWl fz.burned region = false → Completes (.lockWrite 0x4F54 region) s (starts (.ctrl 2 region) (wlCopies region))) ∧
      (ok 3 → otpRl fz.burned region = false → Completes (.lockRead 0x4F54 region) s (starts (.ctrl 3 region) (rlCopies region))) ∧
      (ok 6 → Completes (.marginScan 0x4F54 region) s fun c =>
        c.otp.job = some { kind := .ctrl 6 region, todo := [], tries := 0, stopping := false } ∧ c.fld F.OTP_STATUS.BUSY = 1) ∧
      (ok 7 → Completes (.reburn 0x4F54 region) s (starts (.ctrl 7 region) (weakFuses fz region))) ∧
      (ok 4 → region = 9 → s.chip.fld F.DEV_STATE.IMAGE_OK = 1 → ∀ target, s.chip.fld F.OTP_PARAM.TARGET = target → target ≤ 64 →
        target ≤ s.chip.fld F.IMG_ROLLBACK.IMAGE → rollbackCounter fz.burned < target →
        Completes (.rollbackAdvance 0x4F54 9) s (starts (.ctrl 4 9)
          ((List.range (target - rollbackCounter fz.burned)).flatMap fun i => bodyCopies 9 2 (rollbackCounter fz.burned + i)))) ∧
      (ok 5 → region = 11 → ∀ target, s.chip.fld F.OTP_PARAM.TARGET = target → target < fusedCeiling fz.burned →
        Completes (.ceilingLower 0x4F54 11) s (starts (.ctrl 5 11)
          ((List.range (7 - target - loweringCount fz.burned)).flatMap fun i => bodyCopies 11 2 (loweringCount fz.burned + i))))) ∧
    (∀ job, s.chip.dev.open = true → s.chip.otp.job = some job → job.kind = .ctrl 6 region → ∀ leaky, fz.weak = [] →
      (∀ a ∈ leaky, fuseAt fz.burned a = true) → Completes (.marginScanDone leaky) s fun c =>
        c.otp.job = none ∧ c.fld F.OTP_WEAK.WEAK = 0 ∧ c.fld F.OTP_WEAK.LEAKY = 0 ∧ c.fld F.OTP_STATUS.RESULT = 1 ∧
        c.fld F.OTP_STATUS.BUSY = 0) ∧
    (∀ job op, s.chip.dev.open = true → s.chip.otp.job = some job → job.kind = .ctrl op region → job.todo ≠ [] →
      Completes (.otpAbort 0x4F54) s fun c =>
      c = { s.chip with otp := { s.chip.otp with job := some { job with stopping := true } } })

/-- R597, R578: a pulse that passes at the program margin burns its fuse and goes on to the next, and the last one ends the operation; four
failures on one fuse end it with VERIFY_FAIL, and VPP_OTP out of range ends it before the pulse, with no fuse changed. -/
def Obligations.PulsesBurnFusesOneByOne : Prop :=
  ∀ (s : State) (job : OtpJob) (a mv : Nat) (rest : List Nat), s.chip.dev = .hold → s.chip.otp.job = some job →
    job.todo = a :: rest → job.stopping = false →
    (vppInRange mv = true → ∀ reads, ∃ t, exec (.otpPulse mv reads true) s = .next t ∧ t.pending = s.pending ∧
      fuseAt t.fuses.burned a = true ∧ fuseAt t.fuses.weak a = false ∧
      (∀ b, b ≠ a → fuseAt t.fuses.burned b = fuseAt s.fuses.burned b) ∧
      t.chip.fld F.OTP_PROGRESS.DONE = min 65535 (s.chip.fld F.OTP_PROGRESS.DONE + 1) ∧
      (rest ≠ [] → t.chip.otp.job = some { job with todo := rest, tries := 0 }) ∧
      (rest = [] → t.chip.otp.job = none ∧ t.chip.fld F.OTP_STATUS.BUSY = 0 ∧ t.chip.otp.lastRead = t.fuses.burned)) ∧
    (vppInRange mv = true → ∀ reads, ∃ t, exec (.otpPulse mv reads false) s = .next t ∧
      (job.tries < 3 → t.chip.otp.job = some { job with tries := job.tries + 1 }) ∧
      (3 ≤ job.tries → t.chip.otp.job = none) ∧ t.chip.fld F.OTP_PROGRESS.DONE = s.chip.fld F.OTP_PROGRESS.DONE) ∧
    (vppInRange mv = false → ∀ reads margin, ∃ t, exec (.otpPulse mv reads margin) s = .next t ∧ t.fuses = s.fuses ∧
      t.chip.otp.job = none ∧ t.chip.fld F.OTP_VPP.IN_RANGE = 0)

/-- R151, R152, R156, R509: a lifecycle request and a lens-calibration request whose conditions hold start burning their fuses; a refused
one shows the reason and burns nothing. LC_AUTH is cleared either way. The last two clauses, on requests in the other states in which
the ports answer, are the model's reading (log entry 119). -/
def Obligations.LifecycleAndLensRequests : Prop :=
  ∀ (s : State) (key : Nat), key < 65536 →
    let fz := s.fuses
    let left (fuses : List Nat) : List Nat := fuses.filter fun a => !fz.strong a
    (s.chip.dev.open = true → ∀ target, target < 8 →
      let why := s.chip.lcRefusal key target
      (∀ b, lcBit (lifecycleCode s.chip.otp.lastRead) target = some b → why = 0 → left (bodyCopies 0 2 b) ≠ [] →
        Completes (.lcCtrl key target) s fun c =>
          c.otp.job = some { kind := .lifecycle target, todo := left (bodyCopies 0 2 b), tries := 0, stopping := false } ∧
          c.fld F.LIFECYCLE.LC_BUSY = 1 ∧ (∀ k, k < 16 → c.word (A.LC_AUTH + 4 * k) = 0)) ∧
      (why ≠ 0 → Completes (.lcCtrl key target) s fun c =>
        c.fld F.LIFECYCLE.LC_RESULT = why ∧ c.otp = s.chip.otp ∧ (why = 6 → Logged Code.LC_AUTH_FAIL noUnit c) ∧
        (∀ k, k < 16 → c.word (A.LC_AUTH + 4 * k) = 0))) ∧
    (s.chip.dev.open = true → ∀ why, why = s.chip.lensRefusal fz key →
      (∀ slot, why = 0 → (List.range 16).find? (fun n => !slotUsed fz.burned n) = some slot → Completes (.lensCalProg key) s fun c =>
        ∃ todo, c.otp.job = some { kind := .lens slot, todo := todo, tries := 0, stopping := false } ∧
          c.fld F.LENS_CAL_STATUS.BUSY = 1 ∧ (∀ a ∈ todo, a ∈ slotFuses slot)) ∧
      (why ≠ 0 → Completes (.lensCalProg key) s fun c => c.fld F.LENS_CAL_STATUS.RESULT = why ∧ c.otp = s.chip.otp)) ∧
    (s.chip.dev.portsAnswer = true → s.chip.dev.open = false →
      (∀ target, target < 8 → Completes (.lcCtrl key target) s fun c =>
        c.fld F.LIFECYCLE.LC_RESULT = s.chip.lcRefusal key target ∧ c.fld F.LIFECYCLE.LC_RESULT ≠ 0 ∧
        c = { s.chip with regs := c.regs } ∧ FieldsBut [F.LIFECYCLE.LC_RESULT] s.chip c) ∧
      (s.chip.otp.job = none → key = 0x4C53 → (s.chip.word A.LENS_CAL_WR_HI).toNat < 65536 → Completes (.lensCalProg key) s fun c =>
        c.fld F.LENS_CAL_STATUS.RESULT = 3 ∧ c.otp = s.chip.otp ∧ Logged Code.LENS_CAL_FAIL noUnit c))

/-- R617 to R624: a keyed FENCE of a Vale in service fences it, takes it out of the running mask, stops its unit and makes the device
degraded; of a fenced one it changes nothing. A keyed MOVER_RESET stops the Mover's unit and puts it in partial reset until the tick
edge at which its return is due. R633: with another key both only record 0x0006 CMD_REJECTED, and so they do, as the model's reading
(log entry 20), in any other state in which the ports answer. -/
def Obligations.UnitsAreFencedAndReset : Prop :=
  ∀ s : State,
    (∀ key n m, key < 65536 → n < 8 → m < 2 → s.chip.dev.portsAnswer = true → key ≠ 0x464C ∨ s.chip.dev.open = false →
      ∀ i, i ∈ [Instr.fence key n, Instr.moverReset key m] → Completes i s fun c =>
        Logged Code.CMD_REJECTED noUnit c ∧ c = { s.chip with regs := c.regs, faults := c.faults } ∧ FieldsBut logFields s.chip c) ∧
    (s.chip.dev.open = true →
    (∀ n, n < 6 →
      (s.chip.fenced n = false → Completes (.fence 0x464C n) s fun c =>
        c.fenced n = true ∧ c.fld (causeField n) = 5 ∧ (c.fld F.DEV_STATE.DEGRADE).testBit 0 = true ∧
        (c.fld F.VALE_MASK.RUNNING).testBit n = false ∧ c.laneRun n = none ∧ c.fld ⟨A.FLT_ACTIVE, 16, 1⟩ = 1 ∧
        n ∈ c.sched.fenceOrder ∧
        (s.chip.sched.fencedAt ≠ s.chip.now ∨ s.chip.sched.fencedLast = [] → c.sched.fenceOrder = s.chip.sched.fenceOrder ++ [n]) ∧ c.laneDown n = true) ∧
      (s.chip.fenced n = true → Completes (.fence 0x464C n) s fun c => c = s.chip)) ∧
    (∀ m, m < 2 →
      (s.chip.moverDown m = false → Completes (.moverReset 0x464C m) s fun c =>
        c.moverDown m = true ∧ c.laneRun (m + 7) = none ∧ (m, s.chip.now) ∈ c.fabric.resetAt ∧
        c.fld ⟨A.FLT_ACTIVE, 16, 1⟩ = 1) ∧
      (s.chip.moverDown m = true → s.chip.moverDue m = true → Completes (.moverReturn m) s fun c =>
        c.moverDown m = false ∧ (∀ f ∈ c.fabric.frozenBy, f.2 ≠ m) ∧ c.sched = s.chip.sched)))

/-- R111, R244, R323, R376, R609, R611, R616: what each clearing and selecting write of the host changes, and nothing else: FLT_ACTIVE bits
but those of a group recording in the same cycle, FLT_STOP, FLT_FIRST, OVERRUN_LOG, the LOOP counts, the cycle peaks, and the Terrace
snapshot of TER_SEL. -/
def Obligations.HostClearsAndSelects : Prop :=
  ∀ s : State,
    let only (fs : List Fld) (c : Chip) : Prop := c = { s.chip with regs := c.regs } ∧ FieldsBut fs s.chip c
    (s.chip.dev.faultWrites = true →
      (∀ bits recording, bits < 2 ^ 32 → recording < 2 ^ 32 → Completes (.fltActiveClear bits recording) s fun c =>
        (∀ g, g < 18 → c.fld ⟨A.FLT_ACTIVE, g, 1⟩ = if bits.testBit g && !recording.testBit g then 0
          else s.chip.fld ⟨A.FLT_ACTIVE, g, 1⟩) ∧ only [⟨A.FLT_ACTIVE, 0, 32⟩] c) ∧
      (Completes .fltStopClr s fun c => c.fld F.FLT_STOP.CODE = 0 ∧ only [F.FLT_STOP.CODE] c) ∧
      (Completes .fltFirstClr s fun c => c.fld F.FLT_FIRST.CODE = 0 ∧ only [F.FLT_FIRST.CODE] c)) ∧
    (s.chip.dev.open = true →
      (Completes .overrunLogClr s fun c => c.fld F.OVERRUN_LOG.COUNT = 0 ∧ c.fld F.OVERRUN_LOG.ENTRY = 0xFFFF ∧
        only [F.OVERRUN_LOG.COUNT, F.OVERRUN_LOG.ENTRY] c) ∧
      (Completes .rtClrCounts s fun c => c.word A.LOOPCOUNT_STATUS = 0 ∧ only [⟨A.LOOPCOUNT_STATUS, 0, 32⟩] c) ∧
      (∀ n, n < 6 → s.chip.fenced n = false → Completes (.clrPeak n) s fun c =>
        c.fld (F.VALE_CYCLES_PEAK.CYCLES.vale n) = 0 ∧ only [F.VALE_CYCLES_PEAK.CYCLES.vale n] c) ∧
      (Completes (.clrPeak 6) s fun c => c.fld F.SAD_CYCLES_PEAK.CYCLES = 0 ∧ only [F.SAD_CYCLES_PEAK.CYCLES] c) ∧
      (∀ g i, g < 512 → i < 8 → Completes (.terSelWrite g i) s fun c =>
        c.fld F.TER_SEL.GROUP = g ∧ c.fld F.TER_SEL.SLICE = i ∧
        c.fld F.TER_GROUP.MODE = (s.chip.terrace.group g).mode % 8 ∧ c.fld F.TER_GROUP.GOOD = (s.chip.terrace.group g).good % 32 ∧
        c.fld F.TER_SLICE_STATE.RETIRED = (!(s.chip.terrace.group g).good.testBit (min i 4)).toNat ∧
        only [F.TER_SEL.GROUP, F.TER_SEL.SLICE, F.TER_GROUP.MODE, F.TER_GROUP.CONVERGED, F.TER_GROUP.SPARE, F.TER_GROUP.GOOD,
          F.TER_SLICE_OFS.OFFSET, F.TER_SLICE_GAIN.GAIN, F.TER_SLICE_SKEW.TRIM, F.TER_SLICE_RESID.RMS,
          F.TER_SLICE_STATE.RETIRED, F.TER_SLICE_STATE.CAUSE] c))

/-- R628, R629: a rail enters a state when two consecutive samples show it, once the ports answer; before that a sample only measures. A
supply condition ends after 8 whole ticks in range. -/
def Obligations.SuppliesAreSampled : Prop :=
  ∀ s : State, s.chip.supply.rails.length = 6 →
    (∀ mv : List Nat, mv.length = 6 →
      (s.chip.dev.portsAnswer = true → Completes (.supplySample mv) s fun c => ∀ r, r < 6 →
        let x := s.chip.rail r
        let seen := railSeen r (mv.getD r 0)
        (c.rail r).mv = mv.getD r 0 ∧ (c.rail r).seen = seen ∧ (c.rail r).state = if seen = x.seen then seen else x.state) ∧
      (s.chip.dev.portsAnswer = false → Completes (.supplySample mv) s fun c =>
        (∀ r, r < 6 → c.rail r = { s.chip.rail r with mv := mv.getD r 0 }) ∧ c = { s.chip with supply := c.supply })) ∧
    ((∀ r, r < 6 → railBad r (s.chip.rail r).state = false ∧ (s.chip.rail r).clean = some 8) →
      Completes (.supplyConditionEnd 6) s fun c => c = { s.chip with supply := { s.chip.supply with range := false } }) ∧
    (s.chip.supply.low = false → s.chip.supply.lowClean = some 8 →
      Completes (.supplyConditionEnd 7) s fun c => c = { s.chip with supply := { s.chip.supply with vddlLow := false } })
end

