-- ==== Sys2Proof/Laws/Sparse.lean ====
section
/-!
SUPPORT. Laws/Sparse.lean: what a sparse map reads after a write, and that a write keeps the canonical form.
-/
namespace Sys2Proof.Machine

variable {α : Type}

theorem Sparse.find_erase_same (m : List (Nat × α)) (k : Nat) : Sparse.find (Sparse.erase m k) k = none := by
  induction m with
  | nil => rfl
  | cons e m ih =>
    obtain ⟨j, w⟩ := e
    by_cases h : j = k <;> simp [Sparse.erase, Sparse.find, h, ih]

theorem Sparse.find_erase_other (m : List (Nat × α)) {k l : Nat} (h : l ≠ k) :
    Sparse.find (Sparse.erase m k) l = Sparse.find m l := by
  induction m with
  | nil => rfl
  | cons e m ih =>
    obtain ⟨j, w⟩ := e
    by_cases hj : j = k
    · subst hj
      simp [Sparse.erase, Sparse.find, Ne.symm h, ih]
    · simp [Sparse.erase, Sparse.find, hj, ih]

theorem Sparse.find_insert_same (m : List (Nat × α)) (k : Nat) (v : α) :
    Sparse.find (Sparse.insert m k v) k = some v := by
  induction m with
  | nil => simp [Sparse.insert, Sparse.find]
  | cons e m ih =>
    obtain ⟨j, w⟩ := e
    simp only [Sparse.insert]
    split
    · simp [Sparse.find]
    · split
      · simp [Sparse.find]
      · rename_i h
        simp [Sparse.find, Ne.symm h, ih]

theorem Sparse.find_insert_other (m : List (Nat × α)) {k l : Nat} (v : α) (h : l ≠ k) :
    Sparse.find (Sparse.insert m k v) l = Sparse.find m l := by
  induction m with
  | nil => simp [Sparse.insert, Sparse.find, Ne.symm h]
  | cons e m ih =>
    obtain ⟨j, w⟩ := e
    simp only [Sparse.insert]
    split
    · simp [Sparse.find, Ne.symm h]
    · split
      · rename_i hk
        subst hk
        simp [Sparse.find, Ne.symm h]
      · simp [Sparse.find, ih]

variable [DecidableEq α]

/-- Reading after a write. -/
theorem Sparse.get_set (d : Nat → α) (m : List (Nat × α)) (k l : Nat) (v : α) :
    Sparse.get d (Sparse.set d m k v) l = if l = k then v else Sparse.get d m l := by
  by_cases h : l = k
  · subst h
    by_cases hv : v = d l
    · simp [Sparse.get, Sparse.set, hv, Sparse.find_erase_same]
    · simp [Sparse.get, Sparse.set, hv, Sparse.find_insert_same]
  · by_cases hv : v = d k
    · simp [Sparse.get, Sparse.set, hv, Sparse.find_erase_other, h]
    · simp [Sparse.get, Sparse.set, hv, Sparse.find_insert_other, h]

@[simp] theorem Sparse.get_set_same (d : Nat → α) (m : List (Nat × α)) (k : Nat) (v : α) :
    Sparse.get d (Sparse.set d m k v) k = v := by simp [Sparse.get_set]

theorem Sparse.get_set_other (d : Nat → α) (m : List (Nat × α)) {k l : Nat} (v : α) (h : l ≠ k) :
    Sparse.get d (Sparse.set d m k v) l = Sparse.get d m l := by simp [Sparse.get_set, h]

omit [DecidableEq α] in
@[simp] theorem Sparse.get_nil (d : Nat → α) (k : Nat) : Sparse.get d [] k = d k := rfl

/-! ### The canonical form -/

/-- Every key is above a bound. -/
def Sparse.above (b : Option Nat) (k : Nat) : Prop := ∀ x, b = some x → x < k

omit [DecidableEq α] in
theorem Sparse.rising_cons (b : Option Nat) (k : Nat) (v : α) (m : List (Nat × α)) :
    Sparse.rising b ((k, v) :: m) = true ↔ Sparse.above b k ∧ Sparse.rising (some k) m = true := by
  cases b <;> simp [Sparse.rising, Sparse.above]

omit [DecidableEq α] in
theorem Sparse.rising_weaken {b : Option Nat} {j : Nat} {m : List (Nat × α)} (hb : Sparse.above b j)
    (h : Sparse.rising (some j) m = true) : Sparse.rising b m = true := by
  cases m with
  | nil => cases b <;> rfl
  | cons e m =>
    obtain ⟨k, v⟩ := e
    rw [Sparse.rising_cons] at h ⊢
    refine ⟨fun x hx => ?_, h.2⟩
    have := hb x hx
    have := h.1 j rfl
    omega

omit [DecidableEq α] in
theorem Sparse.rising_erase {b : Option Nat} {m : List (Nat × α)} (k : Nat) (h : Sparse.rising b m = true) :
    Sparse.rising b (Sparse.erase m k) = true := by
  induction m generalizing b with
  | nil => exact h
  | cons e m ih =>
    obtain ⟨j, w⟩ := e
    rw [Sparse.rising_cons] at h
    simp only [Sparse.erase]
    split
    · exact ih (Sparse.rising_weaken h.1 h.2)
    · rw [Sparse.rising_cons]
      exact ⟨h.1, ih h.2⟩

omit [DecidableEq α] in
theorem Sparse.rising_insert {b : Option Nat} {m : List (Nat × α)} {k : Nat} (v : α) (hb : Sparse.above b k)
    (h : Sparse.rising b m = true) : Sparse.rising b (Sparse.insert m k v) = true := by
  induction m generalizing b with
  | nil => rw [Sparse.insert, Sparse.rising_cons]; exact ⟨hb, rfl⟩
  | cons e m ih =>
    obtain ⟨j, w⟩ := e
    rw [Sparse.rising_cons] at h
    simp only [Sparse.insert]
    split
    · rename_i hk
      rw [Sparse.rising_cons, Sparse.rising_cons]
      exact ⟨hb, fun x hx => by cases hx; exact hk, h.2⟩
    · split
      · rename_i hk
        subst hk
        rw [Sparse.rising_cons]
        exact ⟨hb, h.2⟩
      · rw [Sparse.rising_cons]
        exact ⟨h.1, ih (fun x hx => by cases hx; omega) h.2⟩

theorem Sparse.lean_erase (d : Nat → α) {m : List (Nat × α)} (k : Nat) (h : Sparse.lean d m = true) :
    Sparse.lean d (Sparse.erase m k) = true := by
  induction m with
  | nil => rfl
  | cons e m ih =>
    obtain ⟨j, w⟩ := e
    simp only [Sparse.lean, Bool.and_eq_true] at h
    simp only [Sparse.erase]
    split
    · exact ih h.2
    · simp only [Sparse.lean, Bool.and_eq_true]
      exact ⟨h.1, ih h.2⟩

theorem Sparse.lean_insert (d : Nat → α) {m : List (Nat × α)} {k : Nat} {v : α} (hv : v ≠ d k)
    (h : Sparse.lean d m = true) : Sparse.lean d (Sparse.insert m k v) = true := by
  induction m with
  | nil => simp [Sparse.insert, Sparse.lean, hv]
  | cons e m ih =>
    obtain ⟨j, w⟩ := e
    simp only [Sparse.lean, Bool.and_eq_true, decide_eq_true_eq] at h
    simp only [Sparse.insert]
    split
    · simp [Sparse.lean, hv, h]
    · split
      · simp [Sparse.lean, hv, h]
      · simp [Sparse.lean, h, ih]

/-- A write keeps the canonical form. -/
theorem Sparse.wf_set (d : Nat → α) {m : List (Nat × α)} (k : Nat) (v : α) (h : Sparse.wf d m = true) :
    Sparse.wf d (Sparse.set d m k v) = true := by
  simp only [Sparse.wf, Bool.and_eq_true] at h ⊢
  by_cases hv : v = d k
  · simp only [Sparse.set, hv, ↓reduceIte]
    exact ⟨Sparse.rising_erase k h.1, Sparse.lean_erase d k h.2⟩
  · simp only [Sparse.set, hv, ↓reduceIte]
    exact ⟨Sparse.rising_insert v (fun x hx => by cases hx) h.1, Sparse.lean_insert d hv h.2⟩

@[simp] theorem Sparse.wf_nil (d : Nat → α) : Sparse.wf d ([] : List (Nat × α)) = true := rfl

end Sys2Proof.Machine
end

