-- ==== Sys2Proof/Laws/Registers.lean ====
section
/-!
SUPPORT. Laws/Registers.lean: what a register word and a register field read after a word or a field has been put.
-/
namespace Sys2Proof.Machine

@[simp] theorem RegFile.word_put (f : RegFile) (a b : Nat) (v : Word) :
    (f.put a v).word b = if b = a then v else f.word b := Sparse.get_set _ _ _ _ _

theorem RegFile.wf_put {f : RegFile} (a : Nat) (v : Word) (h : Sparse.wf resetWord f = true) :
    Sparse.wf resetWord (f.put a v) = true := Sparse.wf_set _ _ _ h

/-! ### Fields of a word -/

theorem testBit_fieldOf (v : Word) (lo w i : Nat) :
    (fieldOf v lo w).testBit i = (decide (i < w) && v.toNat.testBit (lo + i)) := by
  simp [fieldOf, Nat.testBit_mod_two_pow, Nat.testBit_div_two_pow, Nat.add_comm]

theorem testBit_withField (v : Word) (lo w x i : Nat) :
    (withField v lo w x).toNat.testBit i =
      (decide (i < 32) && if lo ≤ i ∧ i < lo + w then x.testBit (i - lo) else v.toNat.testBit i) := by
  rw [BitVec.testBit_toNat]
  simp only [withField, Word.of, BitVec.getLsbD_or, BitVec.getLsbD_and, BitVec.getLsbD_not, BitVec.getLsbD_ofNat,
    Nat.testBit_two_pow_sub_one, Nat.testBit_mul_two_pow, Nat.testBit_mod_two_pow, BitVec.testBit_toNat]
  by_cases h32 : i < 32
  · by_cases hlo : lo ≤ i
    · by_cases hw : i - lo < w
      · have h2 : i < lo + w := by omega
        simp only [h32, hlo, hw, h2, decide_true, Bool.true_and, Bool.not_true, Bool.and_false, Bool.false_or, and_self,
          ↓reduceIte]
      · have h2 : ¬ i < lo + w := by omega
        simp only [h32, hlo, hw, h2, decide_true, decide_false, Bool.true_and, Bool.false_and, Bool.and_false,
          Bool.not_false, Bool.and_true, Bool.or_false, and_false, ↓reduceIte]
    · simp only [h32, hlo, decide_true, decide_false, Bool.true_and, Bool.false_and, Bool.not_false, Bool.and_true,
        Bool.or_false, false_and, ↓reduceIte]
  · simp [h32]

/-- A field that has been put reads its value. -/
theorem fieldOf_withField_same (v : Word) {lo w : Nat} (x : Nat) (h : lo + w ≤ 32) :
    fieldOf (withField v lo w x) lo w = x % 2 ^ w := by
  apply Nat.eq_of_testBit_eq
  intro i
  rw [testBit_fieldOf, testBit_withField, Nat.testBit_mod_two_pow]
  by_cases hi : i < w
  · have h1 : lo + i < 32 := by omega
    simp [hi, h1]
  · simp [hi]

/-- Fields that share no bit do not disturb each other. -/
theorem fieldOf_withField_disjoint (v : Word) {lo w lo' w' : Nat} (x : Nat) (h : lo + w ≤ lo' ∨ lo' + w' ≤ lo) :
    fieldOf (withField v lo w x) lo' w' = fieldOf v lo' w' := by
  apply Nat.eq_of_testBit_eq
  intro i
  rw [testBit_fieldOf, testBit_fieldOf, testBit_withField]
  by_cases hi : i < w'
  · have h2 : ¬ (lo ≤ lo' + i ∧ lo' + i < lo + w) := by omega
    simp only [hi, h2, decide_true, Bool.true_and, ↓reduceIte]
    by_cases h32 : lo' + i < 32
    · simp [h32]
    · have : v.toNat < 2 ^ (lo' + i) :=
        Nat.lt_of_lt_of_le v.isLt (Nat.pow_le_pow_right (by omega) (by omega))
      simp [h32, Nat.testBit_lt_two_pow this]
  · simp [hi]

theorem RegFile.fld_setFld_same (f : RegFile) (d : Fld) (x : Nat) (h : d.lo + d.w ≤ 32) :
    (f.setFld d x).fld d = x % 2 ^ d.w := by
  simp [RegFile.fld, RegFile.setFld, fieldOf_withField_same _ _ h]

theorem RegFile.fld_setFld_apart (f : RegFile) {d e : Fld} (x : Nat) (h : d.apart e = true) :
    (f.setFld d x).fld e = f.fld e := by
  simp only [RegFile.fld, RegFile.setFld, RegFile.word_put]
  by_cases ha : e.a = d.a
  · have hd : d.lo + d.w ≤ e.lo ∨ e.lo + e.w ≤ d.lo := by
      simpa [Fld.apart, ha.symm] using h
    rw [if_pos ha, ha, fieldOf_withField_disjoint _ _ hd]
  · rw [if_neg ha]

theorem RegFile.fld_put_other (f : RegFile) {a : Nat} {e : Fld} (v : Word) (h : e.a ≠ a) :
    (f.put a v).fld e = f.fld e := by
  simp [RegFile.fld, h]

theorem RegFile.wf_setFld {f : RegFile} (d : Fld) (x : Nat) (h : Sparse.wf resetWord f = true) :
    Sparse.wf resetWord (f.setFld d x) = true := RegFile.wf_put _ _ h

/-! ### The same for the chip's registers -/

@[simp] theorem Chip.word_put (c : Chip) (a b : Nat) (v : Word) :
    (c.put a v).word b = if b = a then v else c.word b := RegFile.word_put _ _ _ _

theorem Chip.fld_set_same (c : Chip) (d : Fld) (x : Nat) (h : d.lo + d.w ≤ 32) :
    (c.set d x).fld d = x % 2 ^ d.w := RegFile.fld_setFld_same _ _ _ h

theorem Chip.fld_set_apart (c : Chip) {d e : Fld} (x : Nat) (h : d.apart e = true) :
    (c.set d x).fld e = c.fld e := RegFile.fld_setFld_apart _ _ h

theorem Chip.fld_put_other (c : Chip) {a : Nat} {e : Fld} (v : Word) (h : e.a ≠ a) :
    (c.put a v).fld e = c.fld e := RegFile.fld_put_other _ _ h

theorem Chip.word_set_other (c : Chip) {d : Fld} {a : Nat} (x : Nat) (h : a ≠ d.a) :
    (c.set d x).word a = c.word a := by
  simp [Chip.set, RegFile.setFld, Chip.word, h]

end Sys2Proof.Machine
end

