-- ==== Sys2Proof/Laws/State.lean ====
section
/-!
SUPPORT. Laws/State.lean: one lemma per field of the chip and per shared update, so that no later proof unfolds one.
-/
namespace Sys2Proof.Machine

/-! ### A word is put -/

@[simp] theorem Chip.dev_put (c : Chip) (a : Nat) (v : Word) : (c.put a v).dev = c.dev := rfl
@[simp] theorem Chip.mosaic_put (c : Chip) (a : Nat) (v : Word) : (c.put a v).mosaic = c.mosaic := rfl
@[simp] theorem Chip.aon_put (c : Chip) (a : Nat) (v : Word) : (c.put a v).aon = c.aon := rfl
@[simp] theorem Chip.startup_put (c : Chip) (a : Nat) (v : Word) : (c.put a v).startup = c.startup := rfl
@[simp] theorem Chip.force_put (c : Chip) (a : Nat) (v : Word) : (c.put a v).force = c.force := rfl
@[simp] theorem Chip.tally_put (c : Chip) (a : Nat) (v : Word) : (c.put a v).tally = c.tally := rfl
@[simp] theorem Chip.faults_put (c : Chip) (a : Nat) (v : Word) : (c.put a v).faults = c.faults := rfl
@[simp] theorem Chip.once_put (c : Chip) (a : Nat) (v : Word) : (c.put a v).once = c.once := rfl
@[simp] theorem Chip.stamp_put (c : Chip) (a : Nat) (v : Word) : (c.put a v).stamp = c.stamp := rfl
@[simp] theorem Chip.now_put (c : Chip) (a : Nat) (v : Word) : (c.put a v).now = c.now := rfl
@[simp] theorem Chip.timebase_put (c : Chip) (a : Nat) (v : Word) : (c.put a v).timebase = c.timebase := rfl
@[simp] theorem Chip.draws_put (c : Chip) (a : Nat) (v : Word) : (c.put a v).draws = c.draws := rfl
@[simp] theorem Chip.sched_put (c : Chip) (a : Nat) (v : Word) : (c.put a v).sched = c.sched := rfl
@[simp] theorem Chip.mem_put (c : Chip) (a : Nat) (v : Word) : (c.put a v).mem = c.mem := rfl
@[simp] theorem Chip.eccWindow_put (c : Chip) (a : Nat) (v : Word) : (c.put a v).eccWindow = c.eccWindow := rfl
@[simp] theorem Chip.scrub_put (c : Chip) (a : Nat) (v : Word) : (c.put a v).scrub = c.scrub := rfl
@[simp] theorem Chip.fabric_put (c : Chip) (a : Nat) (v : Word) : (c.put a v).fabric = c.fabric := rfl
@[simp] theorem Chip.otp_put (c : Chip) (a : Nat) (v : Word) : (c.put a v).otp = c.otp := rfl
@[simp] theorem Chip.loader_put (c : Chip) (a : Nat) (v : Word) : (c.put a v).loader = c.loader := rfl
@[simp] theorem Chip.pixel_put (c : Chip) (a : Nat) (v : Word) : (c.put a v).pixel = c.pixel := rfl
@[simp] theorem Chip.terrace_put (c : Chip) (a : Nat) (v : Word) : (c.put a v).terrace = c.terrace := rfl
@[simp] theorem Chip.survey_put (c : Chip) (a : Nat) (v : Word) : (c.put a v).survey = c.survey := rfl
@[simp] theorem Chip.front_put (c : Chip) (a : Nat) (v : Word) : (c.put a v).front = c.front := rfl
@[simp] theorem Chip.islands_put (c : Chip) (a : Nat) (v : Word) : (c.put a v).islands = c.islands := rfl
@[simp] theorem Chip.layers_put (c : Chip) (a : Nat) (v : Word) : (c.put a v).layers = c.layers := rfl
@[simp] theorem Chip.layersOld_put (c : Chip) (a : Nat) (v : Word) : (c.put a v).layersOld = c.layersOld := rfl
@[simp] theorem Chip.supply_put (c : Chip) (a : Nat) (v : Word) : (c.put a v).supply = c.supply := rfl
@[simp] theorem Chip.loop_put (c : Chip) (a : Nat) (v : Word) : (c.put a v).loop = c.loop := rfl
@[simp] theorem Chip.host_put (c : Chip) (a : Nat) (v : Word) : (c.put a v).host = c.host := rfl
@[simp] theorem Chip.egress_put (c : Chip) (a : Nat) (v : Word) : (c.put a v).egress = c.egress := rfl

/-! ### A field is put -/

@[simp] theorem Chip.dev_set (c : Chip) (d : Fld) (x : Nat) : (c.set d x).dev = c.dev := rfl
@[simp] theorem Chip.mosaic_set (c : Chip) (d : Fld) (x : Nat) : (c.set d x).mosaic = c.mosaic := rfl
@[simp] theorem Chip.aon_set (c : Chip) (d : Fld) (x : Nat) : (c.set d x).aon = c.aon := rfl
@[simp] theorem Chip.startup_set (c : Chip) (d : Fld) (x : Nat) : (c.set d x).startup = c.startup := rfl
@[simp] theorem Chip.force_set (c : Chip) (d : Fld) (x : Nat) : (c.set d x).force = c.force := rfl
@[simp] theorem Chip.tally_set (c : Chip) (d : Fld) (x : Nat) : (c.set d x).tally = c.tally := rfl
@[simp] theorem Chip.faults_set (c : Chip) (d : Fld) (x : Nat) : (c.set d x).faults = c.faults := rfl
@[simp] theorem Chip.once_set (c : Chip) (d : Fld) (x : Nat) : (c.set d x).once = c.once := rfl
@[simp] theorem Chip.stamp_set (c : Chip) (d : Fld) (x : Nat) : (c.set d x).stamp = c.stamp := rfl
@[simp] theorem Chip.now_set (c : Chip) (d : Fld) (x : Nat) : (c.set d x).now = c.now := rfl
@[simp] theorem Chip.timebase_set (c : Chip) (d : Fld) (x : Nat) : (c.set d x).timebase = c.timebase := rfl
@[simp] theorem Chip.draws_set (c : Chip) (d : Fld) (x : Nat) : (c.set d x).draws = c.draws := rfl
@[simp] theorem Chip.sched_set (c : Chip) (d : Fld) (x : Nat) : (c.set d x).sched = c.sched := rfl
@[simp] theorem Chip.mem_set (c : Chip) (d : Fld) (x : Nat) : (c.set d x).mem = c.mem := rfl
@[simp] theorem Chip.eccWindow_set (c : Chip) (d : Fld) (x : Nat) : (c.set d x).eccWindow = c.eccWindow := rfl
@[simp] theorem Chip.scrub_set (c : Chip) (d : Fld) (x : Nat) : (c.set d x).scrub = c.scrub := rfl
@[simp] theorem Chip.fabric_set (c : Chip) (d : Fld) (x : Nat) : (c.set d x).fabric = c.fabric := rfl
@[simp] theorem Chip.otp_set (c : Chip) (d : Fld) (x : Nat) : (c.set d x).otp = c.otp := rfl
@[simp] theorem Chip.loader_set (c : Chip) (d : Fld) (x : Nat) : (c.set d x).loader = c.loader := rfl
@[simp] theorem Chip.pixel_set (c : Chip) (d : Fld) (x : Nat) : (c.set d x).pixel = c.pixel := rfl
@[simp] theorem Chip.terrace_set (c : Chip) (d : Fld) (x : Nat) : (c.set d x).terrace = c.terrace := rfl
@[simp] theorem Chip.survey_set (c : Chip) (d : Fld) (x : Nat) : (c.set d x).survey = c.survey := rfl
@[simp] theorem Chip.front_set (c : Chip) (d : Fld) (x : Nat) : (c.set d x).front = c.front := rfl
@[simp] theorem Chip.islands_set (c : Chip) (d : Fld) (x : Nat) : (c.set d x).islands = c.islands := rfl
@[simp] theorem Chip.layers_set (c : Chip) (d : Fld) (x : Nat) : (c.set d x).layers = c.layers := rfl
@[simp] theorem Chip.layersOld_set (c : Chip) (d : Fld) (x : Nat) : (c.set d x).layersOld = c.layersOld := rfl
@[simp] theorem Chip.supply_set (c : Chip) (d : Fld) (x : Nat) : (c.set d x).supply = c.supply := rfl
@[simp] theorem Chip.loop_set (c : Chip) (d : Fld) (x : Nat) : (c.set d x).loop = c.loop := rfl
@[simp] theorem Chip.host_set (c : Chip) (d : Fld) (x : Nat) : (c.set d x).host = c.host := rfl
@[simp] theorem Chip.egress_set (c : Chip) (d : Fld) (x : Nat) : (c.set d x).egress = c.egress := rfl

/-! ### A flag is put -/

@[simp] theorem Chip.dev_setBit (c : Chip) (d : Fld) (b : Bool) : (c.setBit d b).dev = c.dev := rfl
@[simp] theorem Chip.mosaic_setBit (c : Chip) (d : Fld) (b : Bool) : (c.setBit d b).mosaic = c.mosaic := rfl
@[simp] theorem Chip.aon_setBit (c : Chip) (d : Fld) (b : Bool) : (c.setBit d b).aon = c.aon := rfl
@[simp] theorem Chip.startup_setBit (c : Chip) (d : Fld) (b : Bool) : (c.setBit d b).startup = c.startup := rfl
@[simp] theorem Chip.force_setBit (c : Chip) (d : Fld) (b : Bool) : (c.setBit d b).force = c.force := rfl
@[simp] theorem Chip.tally_setBit (c : Chip) (d : Fld) (b : Bool) : (c.setBit d b).tally = c.tally := rfl
@[simp] theorem Chip.faults_setBit (c : Chip) (d : Fld) (b : Bool) : (c.setBit d b).faults = c.faults := rfl
@[simp] theorem Chip.once_setBit (c : Chip) (d : Fld) (b : Bool) : (c.setBit d b).once = c.once := rfl
@[simp] theorem Chip.stamp_setBit (c : Chip) (d : Fld) (b : Bool) : (c.setBit d b).stamp = c.stamp := rfl
@[simp] theorem Chip.now_setBit (c : Chip) (d : Fld) (b : Bool) : (c.setBit d b).now = c.now := rfl
@[simp] theorem Chip.timebase_setBit (c : Chip) (d : Fld) (b : Bool) : (c.setBit d b).timebase = c.timebase := rfl
@[simp] theorem Chip.draws_setBit (c : Chip) (d : Fld) (b : Bool) : (c.setBit d b).draws = c.draws := rfl
@[simp] theorem Chip.sched_setBit (c : Chip) (d : Fld) (b : Bool) : (c.setBit d b).sched = c.sched := rfl
@[simp] theorem Chip.mem_setBit (c : Chip) (d : Fld) (b : Bool) : (c.setBit d b).mem = c.mem := rfl
@[simp] theorem Chip.eccWindow_setBit (c : Chip) (d : Fld) (b : Bool) : (c.setBit d b).eccWindow = c.eccWindow := rfl
@[simp] theorem Chip.scrub_setBit (c : Chip) (d : Fld) (b : Bool) : (c.setBit d b).scrub = c.scrub := rfl
@[simp] theorem Chip.fabric_setBit (c : Chip) (d : Fld) (b : Bool) : (c.setBit d b).fabric = c.fabric := rfl
@[simp] theorem Chip.otp_setBit (c : Chip) (d : Fld) (b : Bool) : (c.setBit d b).otp = c.otp := rfl
@[simp] theorem Chip.loader_setBit (c : Chip) (d : Fld) (b : Bool) : (c.setBit d b).loader = c.loader := rfl
@[simp] theorem Chip.pixel_setBit (c : Chip) (d : Fld) (b : Bool) : (c.setBit d b).pixel = c.pixel := rfl
@[simp] theorem Chip.terrace_setBit (c : Chip) (d : Fld) (b : Bool) : (c.setBit d b).terrace = c.terrace := rfl
@[simp] theorem Chip.survey_setBit (c : Chip) (d : Fld) (b : Bool) : (c.setBit d b).survey = c.survey := rfl
@[simp] theorem Chip.front_setBit (c : Chip) (d : Fld) (b : Bool) : (c.setBit d b).front = c.front := rfl
@[simp] theorem Chip.islands_setBit (c : Chip) (d : Fld) (b : Bool) : (c.setBit d b).islands = c.islands := rfl
@[simp] theorem Chip.layers_setBit (c : Chip) (d : Fld) (b : Bool) : (c.setBit d b).layers = c.layers := rfl
@[simp] theorem Chip.layersOld_setBit (c : Chip) (d : Fld) (b : Bool) : (c.setBit d b).layersOld = c.layersOld := rfl
@[simp] theorem Chip.supply_setBit (c : Chip) (d : Fld) (b : Bool) : (c.setBit d b).supply = c.supply := rfl
@[simp] theorem Chip.loop_setBit (c : Chip) (d : Fld) (b : Bool) : (c.setBit d b).loop = c.loop := rfl
@[simp] theorem Chip.host_setBit (c : Chip) (d : Fld) (b : Bool) : (c.setBit d b).host = c.host := rfl
@[simp] theorem Chip.egress_setBit (c : Chip) (d : Fld) (b : Bool) : (c.setBit d b).egress = c.egress := rfl

/-! ### A flag is raised -/

@[simp] theorem Chip.dev_raise (c : Chip) (d : Fld) : (c.raise d).dev = c.dev := rfl
@[simp] theorem Chip.mosaic_raise (c : Chip) (d : Fld) : (c.raise d).mosaic = c.mosaic := rfl
@[simp] theorem Chip.aon_raise (c : Chip) (d : Fld) : (c.raise d).aon = c.aon := rfl
@[simp] theorem Chip.startup_raise (c : Chip) (d : Fld) : (c.raise d).startup = c.startup := rfl
@[simp] theorem Chip.force_raise (c : Chip) (d : Fld) : (c.raise d).force = c.force := rfl
@[simp] theorem Chip.tally_raise (c : Chip) (d : Fld) : (c.raise d).tally = c.tally := rfl
@[simp] theorem Chip.faults_raise (c : Chip) (d : Fld) : (c.raise d).faults = c.faults := rfl
@[simp] theorem Chip.once_raise (c : Chip) (d : Fld) : (c.raise d).once = c.once := rfl
@[simp] theorem Chip.stamp_raise (c : Chip) (d : Fld) : (c.raise d).stamp = c.stamp := rfl
@[simp] theorem Chip.now_raise (c : Chip) (d : Fld) : (c.raise d).now = c.now := rfl
@[simp] theorem Chip.timebase_raise (c : Chip) (d : Fld) : (c.raise d).timebase = c.timebase := rfl
@[simp] theorem Chip.draws_raise (c : Chip) (d : Fld) : (c.raise d).draws = c.draws := rfl
@[simp] theorem Chip.sched_raise (c : Chip) (d : Fld) : (c.raise d).sched = c.sched := rfl
@[simp] theorem Chip.mem_raise (c : Chip) (d : Fld) : (c.raise d).mem = c.mem := rfl
@[simp] theorem Chip.eccWindow_raise (c : Chip) (d : Fld) : (c.raise d).eccWindow = c.eccWindow := rfl
@[simp] theorem Chip.scrub_raise (c : Chip) (d : Fld) : (c.raise d).scrub = c.scrub := rfl
@[simp] theorem Chip.fabric_raise (c : Chip) (d : Fld) : (c.raise d).fabric = c.fabric := rfl
@[simp] theorem Chip.otp_raise (c : Chip) (d : Fld) : (c.raise d).otp = c.otp := rfl
@[simp] theorem Chip.loader_raise (c : Chip) (d : Fld) : (c.raise d).loader = c.loader := rfl
@[simp] theorem Chip.pixel_raise (c : Chip) (d : Fld) : (c.raise d).pixel = c.pixel := rfl
@[simp] theorem Chip.terrace_raise (c : Chip) (d : Fld) : (c.raise d).terrace = c.terrace := rfl
@[simp] theorem Chip.survey_raise (c : Chip) (d : Fld) : (c.raise d).survey = c.survey := rfl
@[simp] theorem Chip.front_raise (c : Chip) (d : Fld) : (c.raise d).front = c.front := rfl
@[simp] theorem Chip.islands_raise (c : Chip) (d : Fld) : (c.raise d).islands = c.islands := rfl
@[simp] theorem Chip.layers_raise (c : Chip) (d : Fld) : (c.raise d).layers = c.layers := rfl
@[simp] theorem Chip.layersOld_raise (c : Chip) (d : Fld) : (c.raise d).layersOld = c.layersOld := rfl
@[simp] theorem Chip.supply_raise (c : Chip) (d : Fld) : (c.raise d).supply = c.supply := rfl
@[simp] theorem Chip.loop_raise (c : Chip) (d : Fld) : (c.raise d).loop = c.loop := rfl
@[simp] theorem Chip.host_raise (c : Chip) (d : Fld) : (c.raise d).host = c.host := rfl
@[simp] theorem Chip.egress_raise (c : Chip) (d : Fld) : (c.raise d).egress = c.egress := rfl

/-! ### A counter counts -/

@[simp] theorem Chip.dev_count (c : Chip) (d : Fld) (n : Nat) : (c.count d n).dev = c.dev := rfl
@[simp] theorem Chip.mosaic_count (c : Chip) (d : Fld) (n : Nat) : (c.count d n).mosaic = c.mosaic := rfl
@[simp] theorem Chip.aon_count (c : Chip) (d : Fld) (n : Nat) : (c.count d n).aon = c.aon := rfl
@[simp] theorem Chip.startup_count (c : Chip) (d : Fld) (n : Nat) : (c.count d n).startup = c.startup := rfl
@[simp] theorem Chip.force_count (c : Chip) (d : Fld) (n : Nat) : (c.count d n).force = c.force := rfl
@[simp] theorem Chip.tally_count (c : Chip) (d : Fld) (n : Nat) : (c.count d n).tally = c.tally := rfl
@[simp] theorem Chip.faults_count (c : Chip) (d : Fld) (n : Nat) : (c.count d n).faults = c.faults := rfl
@[simp] theorem Chip.once_count (c : Chip) (d : Fld) (n : Nat) : (c.count d n).once = c.once := rfl
@[simp] theorem Chip.stamp_count (c : Chip) (d : Fld) (n : Nat) : (c.count d n).stamp = c.stamp := rfl
@[simp] theorem Chip.now_count (c : Chip) (d : Fld) (n : Nat) : (c.count d n).now = c.now := rfl
@[simp] theorem Chip.timebase_count (c : Chip) (d : Fld) (n : Nat) : (c.count d n).timebase = c.timebase := rfl
@[simp] theorem Chip.draws_count (c : Chip) (d : Fld) (n : Nat) : (c.count d n).draws = c.draws := rfl
@[simp] theorem Chip.sched_count (c : Chip) (d : Fld) (n : Nat) : (c.count d n).sched = c.sched := rfl
@[simp] theorem Chip.mem_count (c : Chip) (d : Fld) (n : Nat) : (c.count d n).mem = c.mem := rfl
@[simp] theorem Chip.eccWindow_count (c : Chip) (d : Fld) (n : Nat) : (c.count d n).eccWindow = c.eccWindow := rfl
@[simp] theorem Chip.scrub_count (c : Chip) (d : Fld) (n : Nat) : (c.count d n).scrub = c.scrub := rfl
@[simp] theorem Chip.fabric_count (c : Chip) (d : Fld) (n : Nat) : (c.count d n).fabric = c.fabric := rfl
@[simp] theorem Chip.otp_count (c : Chip) (d : Fld) (n : Nat) : (c.count d n).otp = c.otp := rfl
@[simp] theorem Chip.loader_count (c : Chip) (d : Fld) (n : Nat) : (c.count d n).loader = c.loader := rfl
@[simp] theorem Chip.pixel_count (c : Chip) (d : Fld) (n : Nat) : (c.count d n).pixel = c.pixel := rfl
@[simp] theorem Chip.terrace_count (c : Chip) (d : Fld) (n : Nat) : (c.count d n).terrace = c.terrace := rfl
@[simp] theorem Chip.survey_count (c : Chip) (d : Fld) (n : Nat) : (c.count d n).survey = c.survey := rfl
@[simp] theorem Chip.front_count (c : Chip) (d : Fld) (n : Nat) : (c.count d n).front = c.front := rfl
@[simp] theorem Chip.islands_count (c : Chip) (d : Fld) (n : Nat) : (c.count d n).islands = c.islands := rfl
@[simp] theorem Chip.layers_count (c : Chip) (d : Fld) (n : Nat) : (c.count d n).layers = c.layers := rfl
@[simp] theorem Chip.layersOld_count (c : Chip) (d : Fld) (n : Nat) : (c.count d n).layersOld = c.layersOld := rfl
@[simp] theorem Chip.supply_count (c : Chip) (d : Fld) (n : Nat) : (c.count d n).supply = c.supply := rfl
@[simp] theorem Chip.loop_count (c : Chip) (d : Fld) (n : Nat) : (c.count d n).loop = c.loop := rfl
@[simp] theorem Chip.host_count (c : Chip) (d : Fld) (n : Nat) : (c.count d n).host = c.host := rfl
@[simp] theorem Chip.egress_count (c : Chip) (d : Fld) (n : Nat) : (c.count d n).egress = c.egress := rfl

/-! ### A counter that wraps counts -/

@[simp] theorem Chip.dev_countWrap (c : Chip) (d : Fld) (n : Nat) : (c.countWrap d n).dev = c.dev := rfl
@[simp] theorem Chip.mosaic_countWrap (c : Chip) (d : Fld) (n : Nat) : (c.countWrap d n).mosaic = c.mosaic := rfl
@[simp] theorem Chip.aon_countWrap (c : Chip) (d : Fld) (n : Nat) : (c.countWrap d n).aon = c.aon := rfl
@[simp] theorem Chip.startup_countWrap (c : Chip) (d : Fld) (n : Nat) : (c.countWrap d n).startup = c.startup := rfl
@[simp] theorem Chip.force_countWrap (c : Chip) (d : Fld) (n : Nat) : (c.countWrap d n).force = c.force := rfl
@[simp] theorem Chip.tally_countWrap (c : Chip) (d : Fld) (n : Nat) : (c.countWrap d n).tally = c.tally := rfl
@[simp] theorem Chip.faults_countWrap (c : Chip) (d : Fld) (n : Nat) : (c.countWrap d n).faults = c.faults := rfl
@[simp] theorem Chip.once_countWrap (c : Chip) (d : Fld) (n : Nat) : (c.countWrap d n).once = c.once := rfl
@[simp] theorem Chip.stamp_countWrap (c : Chip) (d : Fld) (n : Nat) : (c.countWrap d n).stamp = c.stamp := rfl
@[simp] theorem Chip.now_countWrap (c : Chip) (d : Fld) (n : Nat) : (c.countWrap d n).now = c.now := rfl
@[simp] theorem Chip.timebase_countWrap (c : Chip) (d : Fld) (n : Nat) : (c.countWrap d n).timebase = c.timebase := rfl
@[simp] theorem Chip.draws_countWrap (c : Chip) (d : Fld) (n : Nat) : (c.countWrap d n).draws = c.draws := rfl
@[simp] theorem Chip.sched_countWrap (c : Chip) (d : Fld) (n : Nat) : (c.countWrap d n).sched = c.sched := rfl
@[simp] theorem Chip.mem_countWrap (c : Chip) (d : Fld) (n : Nat) : (c.countWrap d n).mem = c.mem := rfl
@[simp] theorem Chip.eccWindow_countWrap (c : Chip) (d : Fld) (n : Nat) : (c.countWrap d n).eccWindow = c.eccWindow := rfl
@[simp] theorem Chip.scrub_countWrap (c : Chip) (d : Fld) (n : Nat) : (c.countWrap d n).scrub = c.scrub := rfl
@[simp] theorem Chip.fabric_countWrap (c : Chip) (d : Fld) (n : Nat) : (c.countWrap d n).fabric = c.fabric := rfl
@[simp] theorem Chip.otp_countWrap (c : Chip) (d : Fld) (n : Nat) : (c.countWrap d n).otp = c.otp := rfl
@[simp] theorem Chip.loader_countWrap (c : Chip) (d : Fld) (n : Nat) : (c.countWrap d n).loader = c.loader := rfl
@[simp] theorem Chip.pixel_countWrap (c : Chip) (d : Fld) (n : Nat) : (c.countWrap d n).pixel = c.pixel := rfl
@[simp] theorem Chip.terrace_countWrap (c : Chip) (d : Fld) (n : Nat) : (c.countWrap d n).terrace = c.terrace := rfl
@[simp] theorem Chip.survey_countWrap (c : Chip) (d : Fld) (n : Nat) : (c.countWrap d n).survey = c.survey := rfl
@[simp] theorem Chip.front_countWrap (c : Chip) (d : Fld) (n : Nat) : (c.countWrap d n).front = c.front := rfl
@[simp] theorem Chip.islands_countWrap (c : Chip) (d : Fld) (n : Nat) : (c.countWrap d n).islands = c.islands := rfl
@[simp] theorem Chip.layers_countWrap (c : Chip) (d : Fld) (n : Nat) : (c.countWrap d n).layers = c.layers := rfl
@[simp] theorem Chip.layersOld_countWrap (c : Chip) (d : Fld) (n : Nat) : (c.countWrap d n).layersOld = c.layersOld := rfl
@[simp] theorem Chip.supply_countWrap (c : Chip) (d : Fld) (n : Nat) : (c.countWrap d n).supply = c.supply := rfl
@[simp] theorem Chip.loop_countWrap (c : Chip) (d : Fld) (n : Nat) : (c.countWrap d n).loop = c.loop := rfl
@[simp] theorem Chip.host_countWrap (c : Chip) (d : Fld) (n : Nat) : (c.countWrap d n).host = c.host := rfl
@[simp] theorem Chip.egress_countWrap (c : Chip) (d : Fld) (n : Nat) : (c.countWrap d n).egress = c.egress := rfl

/-! ### A count of the tick -/

@[simp] theorem Chip.dev_tallyAdd (c : Chip) (d : Fld) (n : Nat) : (c.tallyAdd d n).dev = c.dev := rfl
@[simp] theorem Chip.mosaic_tallyAdd (c : Chip) (d : Fld) (n : Nat) : (c.tallyAdd d n).mosaic = c.mosaic := rfl
@[simp] theorem Chip.aon_tallyAdd (c : Chip) (d : Fld) (n : Nat) : (c.tallyAdd d n).aon = c.aon := rfl
@[simp] theorem Chip.startup_tallyAdd (c : Chip) (d : Fld) (n : Nat) : (c.tallyAdd d n).startup = c.startup := rfl
@[simp] theorem Chip.regs_tallyAdd (c : Chip) (d : Fld) (n : Nat) : (c.tallyAdd d n).regs = c.regs := rfl
@[simp] theorem Chip.force_tallyAdd (c : Chip) (d : Fld) (n : Nat) : (c.tallyAdd d n).force = c.force := rfl
@[simp] theorem Chip.faults_tallyAdd (c : Chip) (d : Fld) (n : Nat) : (c.tallyAdd d n).faults = c.faults := rfl
@[simp] theorem Chip.once_tallyAdd (c : Chip) (d : Fld) (n : Nat) : (c.tallyAdd d n).once = c.once := rfl
@[simp] theorem Chip.stamp_tallyAdd (c : Chip) (d : Fld) (n : Nat) : (c.tallyAdd d n).stamp = c.stamp := rfl
@[simp] theorem Chip.now_tallyAdd (c : Chip) (d : Fld) (n : Nat) : (c.tallyAdd d n).now = c.now := rfl
@[simp] theorem Chip.timebase_tallyAdd (c : Chip) (d : Fld) (n : Nat) : (c.tallyAdd d n).timebase = c.timebase := rfl
@[simp] theorem Chip.draws_tallyAdd (c : Chip) (d : Fld) (n : Nat) : (c.tallyAdd d n).draws = c.draws := rfl
@[simp] theorem Chip.sched_tallyAdd (c : Chip) (d : Fld) (n : Nat) : (c.tallyAdd d n).sched = c.sched := rfl
@[simp] theorem Chip.mem_tallyAdd (c : Chip) (d : Fld) (n : Nat) : (c.tallyAdd d n).mem = c.mem := rfl
@[simp] theorem Chip.eccWindow_tallyAdd (c : Chip) (d : Fld) (n : Nat) : (c.tallyAdd d n).eccWindow = c.eccWindow := rfl
@[simp] theorem Chip.scrub_tallyAdd (c : Chip) (d : Fld) (n : Nat) : (c.tallyAdd d n).scrub = c.scrub := rfl
@[simp] theorem Chip.fabric_tallyAdd (c : Chip) (d : Fld) (n : Nat) : (c.tallyAdd d n).fabric = c.fabric := rfl
@[simp] theorem Chip.otp_tallyAdd (c : Chip) (d : Fld) (n : Nat) : (c.tallyAdd d n).otp = c.otp := rfl
@[simp] theorem Chip.loader_tallyAdd (c : Chip) (d : Fld) (n : Nat) : (c.tallyAdd d n).loader = c.loader := rfl
@[simp] theorem Chip.pixel_tallyAdd (c : Chip) (d : Fld) (n : Nat) : (c.tallyAdd d n).pixel = c.pixel := rfl
@[simp] theorem Chip.terrace_tallyAdd (c : Chip) (d : Fld) (n : Nat) : (c.tallyAdd d n).terrace = c.terrace := rfl
@[simp] theorem Chip.survey_tallyAdd (c : Chip) (d : Fld) (n : Nat) : (c.tallyAdd d n).survey = c.survey := rfl
@[simp] theorem Chip.front_tallyAdd (c : Chip) (d : Fld) (n : Nat) : (c.tallyAdd d n).front = c.front := rfl
@[simp] theorem Chip.islands_tallyAdd (c : Chip) (d : Fld) (n : Nat) : (c.tallyAdd d n).islands = c.islands := rfl
@[simp] theorem Chip.layers_tallyAdd (c : Chip) (d : Fld) (n : Nat) : (c.tallyAdd d n).layers = c.layers := rfl
@[simp] theorem Chip.layersOld_tallyAdd (c : Chip) (d : Fld) (n : Nat) : (c.tallyAdd d n).layersOld = c.layersOld := rfl
@[simp] theorem Chip.supply_tallyAdd (c : Chip) (d : Fld) (n : Nat) : (c.tallyAdd d n).supply = c.supply := rfl
@[simp] theorem Chip.loop_tallyAdd (c : Chip) (d : Fld) (n : Nat) : (c.tallyAdd d n).loop = c.loop := rfl
@[simp] theorem Chip.host_tallyAdd (c : Chip) (d : Fld) (n : Nat) : (c.tallyAdd d n).host = c.host := rfl
@[simp] theorem Chip.egress_tallyAdd (c : Chip) (d : Fld) (n : Nat) : (c.tallyAdd d n).egress = c.egress := rfl

/-! ### A largest value of the tick -/

@[simp] theorem Chip.dev_tallyMax (c : Chip) (d : Fld) (n : Nat) : (c.tallyMax d n).dev = c.dev := rfl
@[simp] theorem Chip.mosaic_tallyMax (c : Chip) (d : Fld) (n : Nat) : (c.tallyMax d n).mosaic = c.mosaic := rfl
@[simp] theorem Chip.aon_tallyMax (c : Chip) (d : Fld) (n : Nat) : (c.tallyMax d n).aon = c.aon := rfl
@[simp] theorem Chip.startup_tallyMax (c : Chip) (d : Fld) (n : Nat) : (c.tallyMax d n).startup = c.startup := rfl
@[simp] theorem Chip.regs_tallyMax (c : Chip) (d : Fld) (n : Nat) : (c.tallyMax d n).regs = c.regs := rfl
@[simp] theorem Chip.force_tallyMax (c : Chip) (d : Fld) (n : Nat) : (c.tallyMax d n).force = c.force := rfl
@[simp] theorem Chip.faults_tallyMax (c : Chip) (d : Fld) (n : Nat) : (c.tallyMax d n).faults = c.faults := rfl
@[simp] theorem Chip.once_tallyMax (c : Chip) (d : Fld) (n : Nat) : (c.tallyMax d n).once = c.once := rfl
@[simp] theorem Chip.stamp_tallyMax (c : Chip) (d : Fld) (n : Nat) : (c.tallyMax d n).stamp = c.stamp := rfl
@[simp] theorem Chip.now_tallyMax (c : Chip) (d : Fld) (n : Nat) : (c.tallyMax d n).now = c.now := rfl
@[simp] theorem Chip.timebase_tallyMax (c : Chip) (d : Fld) (n : Nat) : (c.tallyMax d n).timebase = c.timebase := rfl
@[simp] theorem Chip.draws_tallyMax (c : Chip) (d : Fld) (n : Nat) : (c.tallyMax d n).draws = c.draws := rfl
@[simp] theorem Chip.sched_tallyMax (c : Chip) (d : Fld) (n : Nat) : (c.tallyMax d n).sched = c.sched := rfl
@[simp] theorem Chip.mem_tallyMax (c : Chip) (d : Fld) (n : Nat) : (c.tallyMax d n).mem = c.mem := rfl
@[simp] theorem Chip.eccWindow_tallyMax (c : Chip) (d : Fld) (n : Nat) : (c.tallyMax d n).eccWindow = c.eccWindow := rfl
@[simp] theorem Chip.scrub_tallyMax (c : Chip) (d : Fld) (n : Nat) : (c.tallyMax d n).scrub = c.scrub := rfl
@[simp] theorem Chip.fabric_tallyMax (c : Chip) (d : Fld) (n : Nat) : (c.tallyMax d n).fabric = c.fabric := rfl
@[simp] theorem Chip.otp_tallyMax (c : Chip) (d : Fld) (n : Nat) : (c.tallyMax d n).otp = c.otp := rfl
@[simp] theorem Chip.loader_tallyMax (c : Chip) (d : Fld) (n : Nat) : (c.tallyMax d n).loader = c.loader := rfl
@[simp] theorem Chip.pixel_tallyMax (c : Chip) (d : Fld) (n : Nat) : (c.tallyMax d n).pixel = c.pixel := rfl
@[simp] theorem Chip.terrace_tallyMax (c : Chip) (d : Fld) (n : Nat) : (c.tallyMax d n).terrace = c.terrace := rfl
@[simp] theorem Chip.survey_tallyMax (c : Chip) (d : Fld) (n : Nat) : (c.tallyMax d n).survey = c.survey := rfl
@[simp] theorem Chip.front_tallyMax (c : Chip) (d : Fld) (n : Nat) : (c.tallyMax d n).front = c.front := rfl
@[simp] theorem Chip.islands_tallyMax (c : Chip) (d : Fld) (n : Nat) : (c.tallyMax d n).islands = c.islands := rfl
@[simp] theorem Chip.layers_tallyMax (c : Chip) (d : Fld) (n : Nat) : (c.tallyMax d n).layers = c.layers := rfl
@[simp] theorem Chip.layersOld_tallyMax (c : Chip) (d : Fld) (n : Nat) : (c.tallyMax d n).layersOld = c.layersOld := rfl
@[simp] theorem Chip.supply_tallyMax (c : Chip) (d : Fld) (n : Nat) : (c.tallyMax d n).supply = c.supply := rfl
@[simp] theorem Chip.loop_tallyMax (c : Chip) (d : Fld) (n : Nat) : (c.tallyMax d n).loop = c.loop := rfl
@[simp] theorem Chip.host_tallyMax (c : Chip) (d : Fld) (n : Nat) : (c.tallyMax d n).host = c.host := rfl
@[simp] theorem Chip.egress_tallyMax (c : Chip) (d : Fld) (n : Nat) : (c.tallyMax d n).egress = c.egress := rfl

/-! ### Fields come into force -/

@[simp] theorem Chip.dev_latch (c : Chip) (l : List Nat) : (c.latch l).dev = c.dev := rfl
@[simp] theorem Chip.mosaic_latch (c : Chip) (l : List Nat) : (c.latch l).mosaic = c.mosaic := rfl
@[simp] theorem Chip.aon_latch (c : Chip) (l : List Nat) : (c.latch l).aon = c.aon := rfl
@[simp] theorem Chip.startup_latch (c : Chip) (l : List Nat) : (c.latch l).startup = c.startup := rfl
@[simp] theorem Chip.regs_latch (c : Chip) (l : List Nat) : (c.latch l).regs = c.regs := rfl
@[simp] theorem Chip.tally_latch (c : Chip) (l : List Nat) : (c.latch l).tally = c.tally := rfl
@[simp] theorem Chip.faults_latch (c : Chip) (l : List Nat) : (c.latch l).faults = c.faults := rfl
@[simp] theorem Chip.once_latch (c : Chip) (l : List Nat) : (c.latch l).once = c.once := rfl
@[simp] theorem Chip.stamp_latch (c : Chip) (l : List Nat) : (c.latch l).stamp = c.stamp := rfl
@[simp] theorem Chip.now_latch (c : Chip) (l : List Nat) : (c.latch l).now = c.now := rfl
@[simp] theorem Chip.timebase_latch (c : Chip) (l : List Nat) : (c.latch l).timebase = c.timebase := rfl
@[simp] theorem Chip.draws_latch (c : Chip) (l : List Nat) : (c.latch l).draws = c.draws := rfl
@[simp] theorem Chip.sched_latch (c : Chip) (l : List Nat) : (c.latch l).sched = { c.sched with written := [] } := rfl
@[simp] theorem Chip.mem_latch (c : Chip) (l : List Nat) : (c.latch l).mem = c.mem := rfl
@[simp] theorem Chip.eccWindow_latch (c : Chip) (l : List Nat) : (c.latch l).eccWindow = c.eccWindow := rfl
@[simp] theorem Chip.scrub_latch (c : Chip) (l : List Nat) : (c.latch l).scrub = c.scrub := rfl
@[simp] theorem Chip.fabric_latch (c : Chip) (l : List Nat) : (c.latch l).fabric = c.fabric := rfl
@[simp] theorem Chip.otp_latch (c : Chip) (l : List Nat) : (c.latch l).otp = c.otp := rfl
@[simp] theorem Chip.loader_latch (c : Chip) (l : List Nat) : (c.latch l).loader = c.loader := rfl
@[simp] theorem Chip.pixel_latch (c : Chip) (l : List Nat) : (c.latch l).pixel = c.pixel := rfl
@[simp] theorem Chip.terrace_latch (c : Chip) (l : List Nat) : (c.latch l).terrace = c.terrace := rfl
@[simp] theorem Chip.survey_latch (c : Chip) (l : List Nat) : (c.latch l).survey = c.survey := rfl
@[simp] theorem Chip.front_latch (c : Chip) (l : List Nat) : (c.latch l).front = c.front := rfl
@[simp] theorem Chip.islands_latch (c : Chip) (l : List Nat) : (c.latch l).islands = c.islands := rfl
@[simp] theorem Chip.layers_latch (c : Chip) (l : List Nat) : (c.latch l).layers = c.layers := rfl
@[simp] theorem Chip.layersOld_latch (c : Chip) (l : List Nat) : (c.latch l).layersOld = c.layersOld := rfl
@[simp] theorem Chip.supply_latch (c : Chip) (l : List Nat) : (c.latch l).supply = c.supply := rfl
@[simp] theorem Chip.loop_latch (c : Chip) (l : List Nat) : (c.latch l).loop = c.loop := rfl
@[simp] theorem Chip.host_latch (c : Chip) (l : List Nat) : (c.latch l).host = c.host := rfl
@[simp] theorem Chip.egress_latch (c : Chip) (l : List Nat) : (c.latch l).egress = c.egress := rfl

/-! ### A free value is drawn -/

@[simp] theorem Chip.dev_draw (c : Chip)  : c.draw.2.dev = c.dev := rfl
@[simp] theorem Chip.mosaic_draw (c : Chip)  : c.draw.2.mosaic = c.mosaic := rfl
@[simp] theorem Chip.aon_draw (c : Chip)  : c.draw.2.aon = c.aon := rfl
@[simp] theorem Chip.startup_draw (c : Chip)  : c.draw.2.startup = c.startup := rfl
@[simp] theorem Chip.regs_draw (c : Chip)  : c.draw.2.regs = c.regs := rfl
@[simp] theorem Chip.force_draw (c : Chip)  : c.draw.2.force = c.force := rfl
@[simp] theorem Chip.tally_draw (c : Chip)  : c.draw.2.tally = c.tally := rfl
@[simp] theorem Chip.faults_draw (c : Chip)  : c.draw.2.faults = c.faults := rfl
@[simp] theorem Chip.once_draw (c : Chip)  : c.draw.2.once = c.once := rfl
@[simp] theorem Chip.stamp_draw (c : Chip)  : c.draw.2.stamp = c.stamp := rfl
@[simp] theorem Chip.now_draw (c : Chip)  : c.draw.2.now = c.now := rfl
@[simp] theorem Chip.timebase_draw (c : Chip)  : c.draw.2.timebase = c.timebase := rfl
@[simp] theorem Chip.sched_draw (c : Chip)  : c.draw.2.sched = c.sched := rfl
@[simp] theorem Chip.mem_draw (c : Chip)  : c.draw.2.mem = c.mem := rfl
@[simp] theorem Chip.eccWindow_draw (c : Chip)  : c.draw.2.eccWindow = c.eccWindow := rfl
@[simp] theorem Chip.scrub_draw (c : Chip)  : c.draw.2.scrub = c.scrub := rfl
@[simp] theorem Chip.fabric_draw (c : Chip)  : c.draw.2.fabric = c.fabric := rfl
@[simp] theorem Chip.otp_draw (c : Chip)  : c.draw.2.otp = c.otp := rfl
@[simp] theorem Chip.loader_draw (c : Chip)  : c.draw.2.loader = c.loader := rfl
@[simp] theorem Chip.pixel_draw (c : Chip)  : c.draw.2.pixel = c.pixel := rfl
@[simp] theorem Chip.terrace_draw (c : Chip)  : c.draw.2.terrace = c.terrace := rfl
@[simp] theorem Chip.survey_draw (c : Chip)  : c.draw.2.survey = c.survey := rfl
@[simp] theorem Chip.front_draw (c : Chip)  : c.draw.2.front = c.front := rfl
@[simp] theorem Chip.islands_draw (c : Chip)  : c.draw.2.islands = c.islands := rfl
@[simp] theorem Chip.layers_draw (c : Chip)  : c.draw.2.layers = c.layers := rfl
@[simp] theorem Chip.layersOld_draw (c : Chip)  : c.draw.2.layersOld = c.layersOld := rfl
@[simp] theorem Chip.supply_draw (c : Chip)  : c.draw.2.supply = c.supply := rfl
@[simp] theorem Chip.loop_draw (c : Chip)  : c.draw.2.loop = c.loop := rfl
@[simp] theorem Chip.host_draw (c : Chip)  : c.draw.2.host = c.host := rfl
@[simp] theorem Chip.egress_draw (c : Chip)  : c.draw.2.egress = c.egress := rfl

/-! ### A fault is recorded -/

theorem Chip.record_eq (c : Chip) (fatal : Bool) (code unit detail : Nat) :
    c.record fatal code unit detail =
      { c with regs := (c.record fatal code unit detail).regs, faults := (c.record fatal code unit detail).faults } := by
  simp only [Chip.record]
  cases c.faults <;> repeat' split
  all_goals rfl

@[simp] theorem Chip.dev_record (c : Chip) (fatal : Bool) (code unit detail : Nat) : (c.record fatal code unit detail).dev = c.dev := by rw [Chip.record_eq]
@[simp] theorem Chip.mosaic_record (c : Chip) (fatal : Bool) (code unit detail : Nat) : (c.record fatal code unit detail).mosaic = c.mosaic := by rw [Chip.record_eq]
@[simp] theorem Chip.aon_record (c : Chip) (fatal : Bool) (code unit detail : Nat) : (c.record fatal code unit detail).aon = c.aon := by rw [Chip.record_eq]
@[simp] theorem Chip.startup_record (c : Chip) (fatal : Bool) (code unit detail : Nat) : (c.record fatal code unit detail).startup = c.startup := by rw [Chip.record_eq]
@[simp] theorem Chip.force_record (c : Chip) (fatal : Bool) (code unit detail : Nat) : (c.record fatal code unit detail).force = c.force := by rw [Chip.record_eq]
@[simp] theorem Chip.tally_record (c : Chip) (fatal : Bool) (code unit detail : Nat) : (c.record fatal code unit detail).tally = c.tally := by rw [Chip.record_eq]
@[simp] theorem Chip.once_record (c : Chip) (fatal : Bool) (code unit detail : Nat) : (c.record fatal code unit detail).once = c.once := by rw [Chip.record_eq]
@[simp] theorem Chip.stamp_record (c : Chip) (fatal : Bool) (code unit detail : Nat) : (c.record fatal code unit detail).stamp = c.stamp := by rw [Chip.record_eq]
@[simp] theorem Chip.now_record (c : Chip) (fatal : Bool) (code unit detail : Nat) : (c.record fatal code unit detail).now = c.now := by rw [Chip.record_eq]
@[simp] theorem Chip.timebase_record (c : Chip) (fatal : Bool) (code unit detail : Nat) : (c.record fatal code unit detail).timebase = c.timebase := by rw [Chip.record_eq]
@[simp] theorem Chip.draws_record (c : Chip) (fatal : Bool) (code unit detail : Nat) : (c.record fatal code unit detail).draws = c.draws := by rw [Chip.record_eq]
@[simp] theorem Chip.sched_record (c : Chip) (fatal : Bool) (code unit detail : Nat) : (c.record fatal code unit detail).sched = c.sched := by rw [Chip.record_eq]
@[simp] theorem Chip.mem_record (c : Chip) (fatal : Bool) (code unit detail : Nat) : (c.record fatal code unit detail).mem = c.mem := by rw [Chip.record_eq]
@[simp] theorem Chip.eccWindow_record (c : Chip) (fatal : Bool) (code unit detail : Nat) : (c.record fatal code unit detail).eccWindow = c.eccWindow := by rw [Chip.record_eq]
@[simp] theorem Chip.scrub_record (c : Chip) (fatal : Bool) (code unit detail : Nat) : (c.record fatal code unit detail).scrub = c.scrub := by rw [Chip.record_eq]
@[simp] theorem Chip.fabric_record (c : Chip) (fatal : Bool) (code unit detail : Nat) : (c.record fatal code unit detail).fabric = c.fabric := by rw [Chip.record_eq]
@[simp] theorem Chip.otp_record (c : Chip) (fatal : Bool) (code unit detail : Nat) : (c.record fatal code unit detail).otp = c.otp := by rw [Chip.record_eq]
@[simp] theorem Chip.loader_record (c : Chip) (fatal : Bool) (code unit detail : Nat) : (c.record fatal code unit detail).loader = c.loader := by rw [Chip.record_eq]
@[simp] theorem Chip.pixel_record (c : Chip) (fatal : Bool) (code unit detail : Nat) : (c.record fatal code unit detail).pixel = c.pixel := by rw [Chip.record_eq]
@[simp] theorem Chip.terrace_record (c : Chip) (fatal : Bool) (code unit detail : Nat) : (c.record fatal code unit detail).terrace = c.terrace := by rw [Chip.record_eq]
@[simp] theorem Chip.survey_record (c : Chip) (fatal : Bool) (code unit detail : Nat) : (c.record fatal code unit detail).survey = c.survey := by rw [Chip.record_eq]
@[simp] theorem Chip.front_record (c : Chip) (fatal : Bool) (code unit detail : Nat) : (c.record fatal code unit detail).front = c.front := by rw [Chip.record_eq]
@[simp] theorem Chip.islands_record (c : Chip) (fatal : Bool) (code unit detail : Nat) : (c.record fatal code unit detail).islands = c.islands := by rw [Chip.record_eq]
@[simp] theorem Chip.layers_record (c : Chip) (fatal : Bool) (code unit detail : Nat) : (c.record fatal code unit detail).layers = c.layers := by rw [Chip.record_eq]
@[simp] theorem Chip.layersOld_record (c : Chip) (fatal : Bool) (code unit detail : Nat) : (c.record fatal code unit detail).layersOld = c.layersOld := by rw [Chip.record_eq]
@[simp] theorem Chip.supply_record (c : Chip) (fatal : Bool) (code unit detail : Nat) : (c.record fatal code unit detail).supply = c.supply := by rw [Chip.record_eq]
@[simp] theorem Chip.loop_record (c : Chip) (fatal : Bool) (code unit detail : Nat) : (c.record fatal code unit detail).loop = c.loop := by rw [Chip.record_eq]
@[simp] theorem Chip.host_record (c : Chip) (fatal : Bool) (code unit detail : Nat) : (c.record fatal code unit detail).host = c.host := by rw [Chip.record_eq]
@[simp] theorem Chip.egress_record (c : Chip) (fatal : Bool) (code unit detail : Nat) : (c.record fatal code unit detail).egress = c.egress := by rw [Chip.record_eq]

/-! ### A fault is recorded that does not stop the device -/

theorem Chip.alert_eq (c : Chip) (code unit detail : Nat) :
    c.alert code unit detail =
      { c with regs := (c.alert code unit detail).regs, faults := (c.alert code unit detail).faults } :=
  Chip.record_eq c false code unit detail

@[simp] theorem Chip.dev_alert (c : Chip) (code unit detail : Nat) : (c.alert code unit detail).dev = c.dev := by rw [Chip.alert_eq]
@[simp] theorem Chip.mosaic_alert (c : Chip) (code unit detail : Nat) : (c.alert code unit detail).mosaic = c.mosaic := by rw [Chip.alert_eq]
@[simp] theorem Chip.aon_alert (c : Chip) (code unit detail : Nat) : (c.alert code unit detail).aon = c.aon := by rw [Chip.alert_eq]
@[simp] theorem Chip.startup_alert (c : Chip) (code unit detail : Nat) : (c.alert code unit detail).startup = c.startup := by rw [Chip.alert_eq]
@[simp] theorem Chip.force_alert (c : Chip) (code unit detail : Nat) : (c.alert code unit detail).force = c.force := by rw [Chip.alert_eq]
@[simp] theorem Chip.tally_alert (c : Chip) (code unit detail : Nat) : (c.alert code unit detail).tally = c.tally := by rw [Chip.alert_eq]
@[simp] theorem Chip.once_alert (c : Chip) (code unit detail : Nat) : (c.alert code unit detail).once = c.once := by rw [Chip.alert_eq]
@[simp] theorem Chip.stamp_alert (c : Chip) (code unit detail : Nat) : (c.alert code unit detail).stamp = c.stamp := by rw [Chip.alert_eq]
@[simp] theorem Chip.now_alert (c : Chip) (code unit detail : Nat) : (c.alert code unit detail).now = c.now := by rw [Chip.alert_eq]
@[simp] theorem Chip.timebase_alert (c : Chip) (code unit detail : Nat) : (c.alert code unit detail).timebase = c.timebase := by rw [Chip.alert_eq]
@[simp] theorem Chip.draws_alert (c : Chip) (code unit detail : Nat) : (c.alert code unit detail).draws = c.draws := by rw [Chip.alert_eq]
@[simp] theorem Chip.sched_alert (c : Chip) (code unit detail : Nat) : (c.alert code unit detail).sched = c.sched := by rw [Chip.alert_eq]
@[simp] theorem Chip.mem_alert (c : Chip) (code unit detail : Nat) : (c.alert code unit detail).mem = c.mem := by rw [Chip.alert_eq]
@[simp] theorem Chip.eccWindow_alert (c : Chip) (code unit detail : Nat) : (c.alert code unit detail).eccWindow = c.eccWindow := by rw [Chip.alert_eq]
@[simp] theorem Chip.scrub_alert (c : Chip) (code unit detail : Nat) : (c.alert code unit detail).scrub = c.scrub := by rw [Chip.alert_eq]
@[simp] theorem Chip.fabric_alert (c : Chip) (code unit detail : Nat) : (c.alert code unit detail).fabric = c.fabric := by rw [Chip.alert_eq]
@[simp] theorem Chip.otp_alert (c : Chip) (code unit detail : Nat) : (c.alert code unit detail).otp = c.otp := by rw [Chip.alert_eq]
@[simp] theorem Chip.loader_alert (c : Chip) (code unit detail : Nat) : (c.alert code unit detail).loader = c.loader := by rw [Chip.alert_eq]
@[simp] theorem Chip.pixel_alert (c : Chip) (code unit detail : Nat) : (c.alert code unit detail).pixel = c.pixel := by rw [Chip.alert_eq]
@[simp] theorem Chip.terrace_alert (c : Chip) (code unit detail : Nat) : (c.alert code unit detail).terrace = c.terrace := by rw [Chip.alert_eq]
@[simp] theorem Chip.survey_alert (c : Chip) (code unit detail : Nat) : (c.alert code unit detail).survey = c.survey := by rw [Chip.alert_eq]
@[simp] theorem Chip.front_alert (c : Chip) (code unit detail : Nat) : (c.alert code unit detail).front = c.front := by rw [Chip.alert_eq]
@[simp] theorem Chip.islands_alert (c : Chip) (code unit detail : Nat) : (c.alert code unit detail).islands = c.islands := by rw [Chip.alert_eq]
@[simp] theorem Chip.layers_alert (c : Chip) (code unit detail : Nat) : (c.alert code unit detail).layers = c.layers := by rw [Chip.alert_eq]
@[simp] theorem Chip.layersOld_alert (c : Chip) (code unit detail : Nat) : (c.alert code unit detail).layersOld = c.layersOld := by rw [Chip.alert_eq]
@[simp] theorem Chip.supply_alert (c : Chip) (code unit detail : Nat) : (c.alert code unit detail).supply = c.supply := by rw [Chip.alert_eq]
@[simp] theorem Chip.loop_alert (c : Chip) (code unit detail : Nat) : (c.alert code unit detail).loop = c.loop := by rw [Chip.alert_eq]
@[simp] theorem Chip.host_alert (c : Chip) (code unit detail : Nat) : (c.alert code unit detail).host = c.host := by rw [Chip.alert_eq]
@[simp] theorem Chip.egress_alert (c : Chip) (code unit detail : Nat) : (c.alert code unit detail).egress = c.egress := by rw [Chip.alert_eq]

/-! ### A fault is recorded once per tick -/

theorem Chip.alertOnce_eq (c : Chip) (code unit detail : Nat) :
    c.alertOnce code unit detail =
      { c with regs := (c.alertOnce code unit detail).regs, faults := (c.alertOnce code unit detail).faults,
               once := (c.alertOnce code unit detail).once } := by
  by_cases h : c.once.contains (code, unit) = true
  · simp only [Chip.alertOnce, h, ↓reduceIte]
  · simp only [Chip.alertOnce, h, ↓reduceIte, Bool.false_eq_true]
    rw [Chip.alert_eq]

@[simp] theorem Chip.dev_alertOnce (c : Chip) (code unit detail : Nat) : (c.alertOnce code unit detail).dev = c.dev := by rw [Chip.alertOnce_eq]
@[simp] theorem Chip.mosaic_alertOnce (c : Chip) (code unit detail : Nat) : (c.alertOnce code unit detail).mosaic = c.mosaic := by rw [Chip.alertOnce_eq]
@[simp] theorem Chip.aon_alertOnce (c : Chip) (code unit detail : Nat) : (c.alertOnce code unit detail).aon = c.aon := by rw [Chip.alertOnce_eq]
@[simp] theorem Chip.startup_alertOnce (c : Chip) (code unit detail : Nat) : (c.alertOnce code unit detail).startup = c.startup := by rw [Chip.alertOnce_eq]
@[simp] theorem Chip.force_alertOnce (c : Chip) (code unit detail : Nat) : (c.alertOnce code unit detail).force = c.force := by rw [Chip.alertOnce_eq]
@[simp] theorem Chip.tally_alertOnce (c : Chip) (code unit detail : Nat) : (c.alertOnce code unit detail).tally = c.tally := by rw [Chip.alertOnce_eq]
@[simp] theorem Chip.stamp_alertOnce (c : Chip) (code unit detail : Nat) : (c.alertOnce code unit detail).stamp = c.stamp := by rw [Chip.alertOnce_eq]
@[simp] theorem Chip.now_alertOnce (c : Chip) (code unit detail : Nat) : (c.alertOnce code unit detail).now = c.now := by rw [Chip.alertOnce_eq]
@[simp] theorem Chip.timebase_alertOnce (c : Chip) (code unit detail : Nat) : (c.alertOnce code unit detail).timebase = c.timebase := by rw [Chip.alertOnce_eq]
@[simp] theorem Chip.draws_alertOnce (c : Chip) (code unit detail : Nat) : (c.alertOnce code unit detail).draws = c.draws := by rw [Chip.alertOnce_eq]
@[simp] theorem Chip.sched_alertOnce (c : Chip) (code unit detail : Nat) : (c.alertOnce code unit detail).sched = c.sched := by rw [Chip.alertOnce_eq]
@[simp] theorem Chip.mem_alertOnce (c : Chip) (code unit detail : Nat) : (c.alertOnce code unit detail).mem = c.mem := by rw [Chip.alertOnce_eq]
@[simp] theorem Chip.eccWindow_alertOnce (c : Chip) (code unit detail : Nat) : (c.alertOnce code unit detail).eccWindow = c.eccWindow := by rw [Chip.alertOnce_eq]
@[simp] theorem Chip.scrub_alertOnce (c : Chip) (code unit detail : Nat) : (c.alertOnce code unit detail).scrub = c.scrub := by rw [Chip.alertOnce_eq]
@[simp] theorem Chip.fabric_alertOnce (c : Chip) (code unit detail : Nat) : (c.alertOnce code unit detail).fabric = c.fabric := by rw [Chip.alertOnce_eq]
@[simp] theorem Chip.otp_alertOnce (c : Chip) (code unit detail : Nat) : (c.alertOnce code unit detail).otp = c.otp := by rw [Chip.alertOnce_eq]
@[simp] theorem Chip.loader_alertOnce (c : Chip) (code unit detail : Nat) : (c.alertOnce code unit detail).loader = c.loader := by rw [Chip.alertOnce_eq]
@[simp] theorem Chip.pixel_alertOnce (c : Chip) (code unit detail : Nat) : (c.alertOnce code unit detail).pixel = c.pixel := by rw [Chip.alertOnce_eq]
@[simp] theorem Chip.terrace_alertOnce (c : Chip) (code unit detail : Nat) : (c.alertOnce code unit detail).terrace = c.terrace := by rw [Chip.alertOnce_eq]
@[simp] theorem Chip.survey_alertOnce (c : Chip) (code unit detail : Nat) : (c.alertOnce code unit detail).survey = c.survey := by rw [Chip.alertOnce_eq]
@[simp] theorem Chip.front_alertOnce (c : Chip) (code unit detail : Nat) : (c.alertOnce code unit detail).front = c.front := by rw [Chip.alertOnce_eq]
@[simp] theorem Chip.islands_alertOnce (c : Chip) (code unit detail : Nat) : (c.alertOnce code unit detail).islands = c.islands := by rw [Chip.alertOnce_eq]
@[simp] theorem Chip.layers_alertOnce (c : Chip) (code unit detail : Nat) : (c.alertOnce code unit detail).layers = c.layers := by rw [Chip.alertOnce_eq]
@[simp] theorem Chip.layersOld_alertOnce (c : Chip) (code unit detail : Nat) : (c.alertOnce code unit detail).layersOld = c.layersOld := by rw [Chip.alertOnce_eq]
@[simp] theorem Chip.supply_alertOnce (c : Chip) (code unit detail : Nat) : (c.alertOnce code unit detail).supply = c.supply := by rw [Chip.alertOnce_eq]
@[simp] theorem Chip.loop_alertOnce (c : Chip) (code unit detail : Nat) : (c.alertOnce code unit detail).loop = c.loop := by rw [Chip.alertOnce_eq]
@[simp] theorem Chip.host_alertOnce (c : Chip) (code unit detail : Nat) : (c.alertOnce code unit detail).host = c.host := by rw [Chip.alertOnce_eq]
@[simp] theorem Chip.egress_alertOnce (c : Chip) (code unit detail : Nat) : (c.alertOnce code unit detail).egress = c.egress := by rw [Chip.alertOnce_eq]

/-! ### A host command is rejected -/

theorem Chip.reject_eq (c : Chip) :
    c.reject = { c with regs := c.reject.regs, faults := c.reject.faults } := Chip.alert_eq c _ _ _

@[simp] theorem Chip.dev_reject (c : Chip)  : c.reject.dev = c.dev := by rw [Chip.reject_eq]
@[simp] theorem Chip.mosaic_reject (c : Chip)  : c.reject.mosaic = c.mosaic := by rw [Chip.reject_eq]
@[simp] theorem Chip.aon_reject (c : Chip)  : c.reject.aon = c.aon := by rw [Chip.reject_eq]
@[simp] theorem Chip.startup_reject (c : Chip)  : c.reject.startup = c.startup := by rw [Chip.reject_eq]
@[simp] theorem Chip.force_reject (c : Chip)  : c.reject.force = c.force := by rw [Chip.reject_eq]
@[simp] theorem Chip.tally_reject (c : Chip)  : c.reject.tally = c.tally := by rw [Chip.reject_eq]
@[simp] theorem Chip.once_reject (c : Chip)  : c.reject.once = c.once := by rw [Chip.reject_eq]
@[simp] theorem Chip.stamp_reject (c : Chip)  : c.reject.stamp = c.stamp := by rw [Chip.reject_eq]
@[simp] theorem Chip.now_reject (c : Chip)  : c.reject.now = c.now := by rw [Chip.reject_eq]
@[simp] theorem Chip.timebase_reject (c : Chip)  : c.reject.timebase = c.timebase := by rw [Chip.reject_eq]
@[simp] theorem Chip.draws_reject (c : Chip)  : c.reject.draws = c.draws := by rw [Chip.reject_eq]
@[simp] theorem Chip.sched_reject (c : Chip)  : c.reject.sched = c.sched := by rw [Chip.reject_eq]
@[simp] theorem Chip.mem_reject (c : Chip)  : c.reject.mem = c.mem := by rw [Chip.reject_eq]
@[simp] theorem Chip.eccWindow_reject (c : Chip)  : c.reject.eccWindow = c.eccWindow := by rw [Chip.reject_eq]
@[simp] theorem Chip.scrub_reject (c : Chip)  : c.reject.scrub = c.scrub := by rw [Chip.reject_eq]
@[simp] theorem Chip.fabric_reject (c : Chip)  : c.reject.fabric = c.fabric := by rw [Chip.reject_eq]
@[simp] theorem Chip.otp_reject (c : Chip)  : c.reject.otp = c.otp := by rw [Chip.reject_eq]
@[simp] theorem Chip.loader_reject (c : Chip)  : c.reject.loader = c.loader := by rw [Chip.reject_eq]
@[simp] theorem Chip.pixel_reject (c : Chip)  : c.reject.pixel = c.pixel := by rw [Chip.reject_eq]
@[simp] theorem Chip.terrace_reject (c : Chip)  : c.reject.terrace = c.terrace := by rw [Chip.reject_eq]
@[simp] theorem Chip.survey_reject (c : Chip)  : c.reject.survey = c.survey := by rw [Chip.reject_eq]
@[simp] theorem Chip.front_reject (c : Chip)  : c.reject.front = c.front := by rw [Chip.reject_eq]
@[simp] theorem Chip.islands_reject (c : Chip)  : c.reject.islands = c.islands := by rw [Chip.reject_eq]
@[simp] theorem Chip.layers_reject (c : Chip)  : c.reject.layers = c.layers := by rw [Chip.reject_eq]
@[simp] theorem Chip.layersOld_reject (c : Chip)  : c.reject.layersOld = c.layersOld := by rw [Chip.reject_eq]
@[simp] theorem Chip.supply_reject (c : Chip)  : c.reject.supply = c.supply := by rw [Chip.reject_eq]
@[simp] theorem Chip.loop_reject (c : Chip)  : c.reject.loop = c.loop := by rw [Chip.reject_eq]
@[simp] theorem Chip.host_reject (c : Chip)  : c.reject.host = c.host := by rw [Chip.reject_eq]
@[simp] theorem Chip.egress_reject (c : Chip)  : c.reject.egress = c.egress := by rw [Chip.reject_eq]

/-! ### The device changes state -/

theorem Chip.enter_eq (c : Chip) (d : DevState) :
    c.enter d = { c with dev := d, regs := (c.enter d).regs } := by
  by_cases h : c.dev = d
  · simp only [Chip.enter, h, ↓reduceIte]
    subst h
    rfl
  · simp only [Chip.enter, h, ↓reduceIte]
    rfl

@[simp] theorem Chip.dev_enter (c : Chip) (d : DevState) : (c.enter d).dev = d := congrArg Chip.dev (Chip.enter_eq c d)

@[simp] theorem Chip.mosaic_enter (c : Chip) (d : DevState) : (c.enter d).mosaic = c.mosaic := by rw [Chip.enter_eq]
@[simp] theorem Chip.aon_enter (c : Chip) (d : DevState) : (c.enter d).aon = c.aon := by rw [Chip.enter_eq]
@[simp] theorem Chip.startup_enter (c : Chip) (d : DevState) : (c.enter d).startup = c.startup := by rw [Chip.enter_eq]
@[simp] theorem Chip.force_enter (c : Chip) (d : DevState) : (c.enter d).force = c.force := by rw [Chip.enter_eq]
@[simp] theorem Chip.tally_enter (c : Chip) (d : DevState) : (c.enter d).tally = c.tally := by rw [Chip.enter_eq]
@[simp] theorem Chip.faults_enter (c : Chip) (d : DevState) : (c.enter d).faults = c.faults := by rw [Chip.enter_eq]
@[simp] theorem Chip.once_enter (c : Chip) (d : DevState) : (c.enter d).once = c.once := by rw [Chip.enter_eq]
@[simp] theorem Chip.stamp_enter (c : Chip) (d : DevState) : (c.enter d).stamp = c.stamp := by rw [Chip.enter_eq]
@[simp] theorem Chip.now_enter (c : Chip) (d : DevState) : (c.enter d).now = c.now := by rw [Chip.enter_eq]
@[simp] theorem Chip.timebase_enter (c : Chip) (d : DevState) : (c.enter d).timebase = c.timebase := by rw [Chip.enter_eq]
@[simp] theorem Chip.draws_enter (c : Chip) (d : DevState) : (c.enter d).draws = c.draws := by rw [Chip.enter_eq]
@[simp] theorem Chip.sched_enter (c : Chip) (d : DevState) : (c.enter d).sched = c.sched := by rw [Chip.enter_eq]
@[simp] theorem Chip.mem_enter (c : Chip) (d : DevState) : (c.enter d).mem = c.mem := by rw [Chip.enter_eq]
@[simp] theorem Chip.eccWindow_enter (c : Chip) (d : DevState) : (c.enter d).eccWindow = c.eccWindow := by rw [Chip.enter_eq]
@[simp] theorem Chip.scrub_enter (c : Chip) (d : DevState) : (c.enter d).scrub = c.scrub := by rw [Chip.enter_eq]
@[simp] theorem Chip.fabric_enter (c : Chip) (d : DevState) : (c.enter d).fabric = c.fabric := by rw [Chip.enter_eq]
@[simp] theorem Chip.otp_enter (c : Chip) (d : DevState) : (c.enter d).otp = c.otp := by rw [Chip.enter_eq]
@[simp] theorem Chip.loader_enter (c : Chip) (d : DevState) : (c.enter d).loader = c.loader := by rw [Chip.enter_eq]
@[simp] theorem Chip.pixel_enter (c : Chip) (d : DevState) : (c.enter d).pixel = c.pixel := by rw [Chip.enter_eq]
@[simp] theorem Chip.terrace_enter (c : Chip) (d : DevState) : (c.enter d).terrace = c.terrace := by rw [Chip.enter_eq]
@[simp] theorem Chip.survey_enter (c : Chip) (d : DevState) : (c.enter d).survey = c.survey := by rw [Chip.enter_eq]
@[simp] theorem Chip.front_enter (c : Chip) (d : DevState) : (c.enter d).front = c.front := by rw [Chip.enter_eq]
@[simp] theorem Chip.islands_enter (c : Chip) (d : DevState) : (c.enter d).islands = c.islands := by rw [Chip.enter_eq]
@[simp] theorem Chip.layers_enter (c : Chip) (d : DevState) : (c.enter d).layers = c.layers := by rw [Chip.enter_eq]
@[simp] theorem Chip.layersOld_enter (c : Chip) (d : DevState) : (c.enter d).layersOld = c.layersOld := by rw [Chip.enter_eq]
@[simp] theorem Chip.supply_enter (c : Chip) (d : DevState) : (c.enter d).supply = c.supply := by rw [Chip.enter_eq]
@[simp] theorem Chip.loop_enter (c : Chip) (d : DevState) : (c.enter d).loop = c.loop := by rw [Chip.enter_eq]
@[simp] theorem Chip.host_enter (c : Chip) (d : DevState) : (c.enter d).host = c.host := by rw [Chip.enter_eq]
@[simp] theorem Chip.egress_enter (c : Chip) (d : DevState) : (c.enter d).egress = c.egress := by rw [Chip.enter_eq]

/-! ### An event of the CSI-2 port -/

theorem Chip.csiEvent_eq (c : Chip) (d : Fld) : c.csiEvent d = { c with regs := (c.csiEvent d).regs } := by
  unfold Chip.csiEvent
  split <;> rfl

@[simp] theorem Chip.dev_csiEvent (c : Chip) (d : Fld) : (c.csiEvent d).dev = c.dev := by rw [Chip.csiEvent_eq]
@[simp] theorem Chip.mosaic_csiEvent (c : Chip) (d : Fld) : (c.csiEvent d).mosaic = c.mosaic := by rw [Chip.csiEvent_eq]
@[simp] theorem Chip.aon_csiEvent (c : Chip) (d : Fld) : (c.csiEvent d).aon = c.aon := by rw [Chip.csiEvent_eq]
@[simp] theorem Chip.startup_csiEvent (c : Chip) (d : Fld) : (c.csiEvent d).startup = c.startup := by rw [Chip.csiEvent_eq]
@[simp] theorem Chip.force_csiEvent (c : Chip) (d : Fld) : (c.csiEvent d).force = c.force := by rw [Chip.csiEvent_eq]
@[simp] theorem Chip.tally_csiEvent (c : Chip) (d : Fld) : (c.csiEvent d).tally = c.tally := by rw [Chip.csiEvent_eq]
@[simp] theorem Chip.faults_csiEvent (c : Chip) (d : Fld) : (c.csiEvent d).faults = c.faults := by rw [Chip.csiEvent_eq]
@[simp] theorem Chip.once_csiEvent (c : Chip) (d : Fld) : (c.csiEvent d).once = c.once := by rw [Chip.csiEvent_eq]
@[simp] theorem Chip.stamp_csiEvent (c : Chip) (d : Fld) : (c.csiEvent d).stamp = c.stamp := by rw [Chip.csiEvent_eq]
@[simp] theorem Chip.now_csiEvent (c : Chip) (d : Fld) : (c.csiEvent d).now = c.now := by rw [Chip.csiEvent_eq]
@[simp] theorem Chip.timebase_csiEvent (c : Chip) (d : Fld) : (c.csiEvent d).timebase = c.timebase := by rw [Chip.csiEvent_eq]
@[simp] theorem Chip.draws_csiEvent (c : Chip) (d : Fld) : (c.csiEvent d).draws = c.draws := by rw [Chip.csiEvent_eq]
@[simp] theorem Chip.sched_csiEvent (c : Chip) (d : Fld) : (c.csiEvent d).sched = c.sched := by rw [Chip.csiEvent_eq]
@[simp] theorem Chip.mem_csiEvent (c : Chip) (d : Fld) : (c.csiEvent d).mem = c.mem := by rw [Chip.csiEvent_eq]
@[simp] theorem Chip.eccWindow_csiEvent (c : Chip) (d : Fld) : (c.csiEvent d).eccWindow = c.eccWindow := by rw [Chip.csiEvent_eq]
@[simp] theorem Chip.scrub_csiEvent (c : Chip) (d : Fld) : (c.csiEvent d).scrub = c.scrub := by rw [Chip.csiEvent_eq]
@[simp] theorem Chip.fabric_csiEvent (c : Chip) (d : Fld) : (c.csiEvent d).fabric = c.fabric := by rw [Chip.csiEvent_eq]
@[simp] theorem Chip.otp_csiEvent (c : Chip) (d : Fld) : (c.csiEvent d).otp = c.otp := by rw [Chip.csiEvent_eq]
@[simp] theorem Chip.loader_csiEvent (c : Chip) (d : Fld) : (c.csiEvent d).loader = c.loader := by rw [Chip.csiEvent_eq]
@[simp] theorem Chip.pixel_csiEvent (c : Chip) (d : Fld) : (c.csiEvent d).pixel = c.pixel := by rw [Chip.csiEvent_eq]
@[simp] theorem Chip.terrace_csiEvent (c : Chip) (d : Fld) : (c.csiEvent d).terrace = c.terrace := by rw [Chip.csiEvent_eq]
@[simp] theorem Chip.survey_csiEvent (c : Chip) (d : Fld) : (c.csiEvent d).survey = c.survey := by rw [Chip.csiEvent_eq]
@[simp] theorem Chip.front_csiEvent (c : Chip) (d : Fld) : (c.csiEvent d).front = c.front := by rw [Chip.csiEvent_eq]
@[simp] theorem Chip.islands_csiEvent (c : Chip) (d : Fld) : (c.csiEvent d).islands = c.islands := by rw [Chip.csiEvent_eq]
@[simp] theorem Chip.layers_csiEvent (c : Chip) (d : Fld) : (c.csiEvent d).layers = c.layers := by rw [Chip.csiEvent_eq]
@[simp] theorem Chip.layersOld_csiEvent (c : Chip) (d : Fld) : (c.csiEvent d).layersOld = c.layersOld := by rw [Chip.csiEvent_eq]
@[simp] theorem Chip.supply_csiEvent (c : Chip) (d : Fld) : (c.csiEvent d).supply = c.supply := by rw [Chip.csiEvent_eq]
@[simp] theorem Chip.loop_csiEvent (c : Chip) (d : Fld) : (c.csiEvent d).loop = c.loop := by rw [Chip.csiEvent_eq]
@[simp] theorem Chip.host_csiEvent (c : Chip) (d : Fld) : (c.csiEvent d).host = c.host := by rw [Chip.csiEvent_eq]
@[simp] theorem Chip.egress_csiEvent (c : Chip) (d : Fld) : (c.csiEvent d).egress = c.egress := by rw [Chip.csiEvent_eq]

/-! ### Updates of registers alone -/

/-- Nothing but the registers may differ. -/
def Chip.RegsOnly (c d : Chip) : Prop := d = { c with regs := d.regs }

theorem Chip.RegsOnly.refl (c : Chip) : Chip.RegsOnly c c := rfl

theorem Chip.RegsOnly.trans {c d e : Chip} (h : Chip.RegsOnly c d) (k : Chip.RegsOnly d e) : Chip.RegsOnly c e := by
  unfold Chip.RegsOnly at *
  rw [k, h]

theorem Chip.RegsOnly.put {c d : Chip} (h : Chip.RegsOnly c d) (a : Nat) (v : Word) : Chip.RegsOnly c (d.put a v) :=
  h.trans rfl

theorem Chip.RegsOnly.set {c d : Chip} (h : Chip.RegsOnly c d) (f : Fld) (x : Nat) : Chip.RegsOnly c (d.set f x) :=
  h.trans rfl

theorem Chip.RegsOnly.setBit {c d : Chip} (h : Chip.RegsOnly c d) (f : Fld) (b : Bool) :
    Chip.RegsOnly c (d.setBit f b) := h.trans rfl

theorem Chip.RegsOnly.raise {c d : Chip} (h : Chip.RegsOnly c d) (f : Fld) : Chip.RegsOnly c (d.raise f) := h.trans rfl

theorem Chip.showVcm_eq (c : Chip) : Chip.RegsOnly c c.showVcm := by
  unfold Chip.showVcm
  exact (((((((Chip.RegsOnly.refl c).set _ _).setBit _ _).setBit _ _).setBit _ _).setBit _ _).setBit _ _).set _ _

/-! ### The registers of the lens driver follow it -/

@[simp] theorem Chip.dev_showVcm (c : Chip)  : c.showVcm.dev = c.dev := by rw [Chip.showVcm_eq c]
@[simp] theorem Chip.mosaic_showVcm (c : Chip)  : c.showVcm.mosaic = c.mosaic := by rw [Chip.showVcm_eq c]
@[simp] theorem Chip.aon_showVcm (c : Chip)  : c.showVcm.aon = c.aon := by rw [Chip.showVcm_eq c]
@[simp] theorem Chip.startup_showVcm (c : Chip)  : c.showVcm.startup = c.startup := by rw [Chip.showVcm_eq c]
@[simp] theorem Chip.force_showVcm (c : Chip)  : c.showVcm.force = c.force := by rw [Chip.showVcm_eq c]
@[simp] theorem Chip.tally_showVcm (c : Chip)  : c.showVcm.tally = c.tally := by rw [Chip.showVcm_eq c]
@[simp] theorem Chip.faults_showVcm (c : Chip)  : c.showVcm.faults = c.faults := by rw [Chip.showVcm_eq c]
@[simp] theorem Chip.once_showVcm (c : Chip)  : c.showVcm.once = c.once := by rw [Chip.showVcm_eq c]
@[simp] theorem Chip.stamp_showVcm (c : Chip)  : c.showVcm.stamp = c.stamp := by rw [Chip.showVcm_eq c]
@[simp] theorem Chip.now_showVcm (c : Chip)  : c.showVcm.now = c.now := by rw [Chip.showVcm_eq c]
@[simp] theorem Chip.timebase_showVcm (c : Chip)  : c.showVcm.timebase = c.timebase := by rw [Chip.showVcm_eq c]
@[simp] theorem Chip.draws_showVcm (c : Chip)  : c.showVcm.draws = c.draws := by rw [Chip.showVcm_eq c]
@[simp] theorem Chip.sched_showVcm (c : Chip)  : c.showVcm.sched = c.sched := by rw [Chip.showVcm_eq c]
@[simp] theorem Chip.mem_showVcm (c : Chip)  : c.showVcm.mem = c.mem := by rw [Chip.showVcm_eq c]
@[simp] theorem Chip.eccWindow_showVcm (c : Chip)  : c.showVcm.eccWindow = c.eccWindow := by rw [Chip.showVcm_eq c]
@[simp] theorem Chip.scrub_showVcm (c : Chip)  : c.showVcm.scrub = c.scrub := by rw [Chip.showVcm_eq c]
@[simp] theorem Chip.fabric_showVcm (c : Chip)  : c.showVcm.fabric = c.fabric := by rw [Chip.showVcm_eq c]
@[simp] theorem Chip.otp_showVcm (c : Chip)  : c.showVcm.otp = c.otp := by rw [Chip.showVcm_eq c]
@[simp] theorem Chip.loader_showVcm (c : Chip)  : c.showVcm.loader = c.loader := by rw [Chip.showVcm_eq c]
@[simp] theorem Chip.pixel_showVcm (c : Chip)  : c.showVcm.pixel = c.pixel := by rw [Chip.showVcm_eq c]
@[simp] theorem Chip.terrace_showVcm (c : Chip)  : c.showVcm.terrace = c.terrace := by rw [Chip.showVcm_eq c]
@[simp] theorem Chip.survey_showVcm (c : Chip)  : c.showVcm.survey = c.survey := by rw [Chip.showVcm_eq c]
@[simp] theorem Chip.front_showVcm (c : Chip)  : c.showVcm.front = c.front := by rw [Chip.showVcm_eq c]
@[simp] theorem Chip.islands_showVcm (c : Chip)  : c.showVcm.islands = c.islands := by rw [Chip.showVcm_eq c]
@[simp] theorem Chip.layers_showVcm (c : Chip)  : c.showVcm.layers = c.layers := by rw [Chip.showVcm_eq c]
@[simp] theorem Chip.layersOld_showVcm (c : Chip)  : c.showVcm.layersOld = c.layersOld := by rw [Chip.showVcm_eq c]
@[simp] theorem Chip.supply_showVcm (c : Chip)  : c.showVcm.supply = c.supply := by rw [Chip.showVcm_eq c]
@[simp] theorem Chip.loop_showVcm (c : Chip)  : c.showVcm.loop = c.loop := by rw [Chip.showVcm_eq c]
@[simp] theorem Chip.host_showVcm (c : Chip)  : c.showVcm.host = c.host := by rw [Chip.showVcm_eq c]
@[simp] theorem Chip.egress_showVcm (c : Chip)  : c.showVcm.egress = c.egress := by rw [Chip.showVcm_eq c]

/-! ### A state of the lens driver is put -/

@[simp] theorem Chip.dev_setVcm (c : Chip) (v : Vcm) : (c.setVcm v).dev = c.dev := by simp only [Chip.setVcm, Chip.dev_showVcm]
@[simp] theorem Chip.mosaic_setVcm (c : Chip) (v : Vcm) : (c.setVcm v).mosaic = c.mosaic := by simp only [Chip.setVcm, Chip.mosaic_showVcm]
@[simp] theorem Chip.aon_setVcm (c : Chip) (v : Vcm) : (c.setVcm v).aon = c.aon := by simp only [Chip.setVcm, Chip.aon_showVcm]
@[simp] theorem Chip.startup_setVcm (c : Chip) (v : Vcm) : (c.setVcm v).startup = c.startup := by simp only [Chip.setVcm, Chip.startup_showVcm]
@[simp] theorem Chip.force_setVcm (c : Chip) (v : Vcm) : (c.setVcm v).force = c.force := by simp only [Chip.setVcm, Chip.force_showVcm]
@[simp] theorem Chip.tally_setVcm (c : Chip) (v : Vcm) : (c.setVcm v).tally = c.tally := by simp only [Chip.setVcm, Chip.tally_showVcm]
@[simp] theorem Chip.faults_setVcm (c : Chip) (v : Vcm) : (c.setVcm v).faults = c.faults := by simp only [Chip.setVcm, Chip.faults_showVcm]
@[simp] theorem Chip.once_setVcm (c : Chip) (v : Vcm) : (c.setVcm v).once = c.once := by simp only [Chip.setVcm, Chip.once_showVcm]
@[simp] theorem Chip.stamp_setVcm (c : Chip) (v : Vcm) : (c.setVcm v).stamp = c.stamp := by simp only [Chip.setVcm, Chip.stamp_showVcm]
@[simp] theorem Chip.now_setVcm (c : Chip) (v : Vcm) : (c.setVcm v).now = c.now := by simp only [Chip.setVcm, Chip.now_showVcm]
@[simp] theorem Chip.timebase_setVcm (c : Chip) (v : Vcm) : (c.setVcm v).timebase = c.timebase := by simp only [Chip.setVcm, Chip.timebase_showVcm]
@[simp] theorem Chip.draws_setVcm (c : Chip) (v : Vcm) : (c.setVcm v).draws = c.draws := by simp only [Chip.setVcm, Chip.draws_showVcm]
@[simp] theorem Chip.sched_setVcm (c : Chip) (v : Vcm) : (c.setVcm v).sched = c.sched := by simp only [Chip.setVcm, Chip.sched_showVcm]
@[simp] theorem Chip.mem_setVcm (c : Chip) (v : Vcm) : (c.setVcm v).mem = c.mem := by simp only [Chip.setVcm, Chip.mem_showVcm]
@[simp] theorem Chip.eccWindow_setVcm (c : Chip) (v : Vcm) : (c.setVcm v).eccWindow = c.eccWindow := by simp only [Chip.setVcm, Chip.eccWindow_showVcm]
@[simp] theorem Chip.scrub_setVcm (c : Chip) (v : Vcm) : (c.setVcm v).scrub = c.scrub := by simp only [Chip.setVcm, Chip.scrub_showVcm]
@[simp] theorem Chip.fabric_setVcm (c : Chip) (v : Vcm) : (c.setVcm v).fabric = c.fabric := by simp only [Chip.setVcm, Chip.fabric_showVcm]
@[simp] theorem Chip.otp_setVcm (c : Chip) (v : Vcm) : (c.setVcm v).otp = c.otp := by simp only [Chip.setVcm, Chip.otp_showVcm]
@[simp] theorem Chip.loader_setVcm (c : Chip) (v : Vcm) : (c.setVcm v).loader = c.loader := by simp only [Chip.setVcm, Chip.loader_showVcm]
@[simp] theorem Chip.pixel_setVcm (c : Chip) (v : Vcm) : (c.setVcm v).pixel = c.pixel := by simp only [Chip.setVcm, Chip.pixel_showVcm]
@[simp] theorem Chip.terrace_setVcm (c : Chip) (v : Vcm) : (c.setVcm v).terrace = c.terrace := by simp only [Chip.setVcm, Chip.terrace_showVcm]
@[simp] theorem Chip.survey_setVcm (c : Chip) (v : Vcm) : (c.setVcm v).survey = c.survey := by simp only [Chip.setVcm, Chip.survey_showVcm]
@[simp] theorem Chip.front_setVcm (c : Chip) (v : Vcm) : (c.setVcm v).front = c.front := by simp only [Chip.setVcm, Chip.front_showVcm]
@[simp] theorem Chip.islands_setVcm (c : Chip) (v : Vcm) : (c.setVcm v).islands = c.islands := by simp only [Chip.setVcm, Chip.islands_showVcm]
@[simp] theorem Chip.layers_setVcm (c : Chip) (v : Vcm) : (c.setVcm v).layers = c.layers := by simp only [Chip.setVcm, Chip.layers_showVcm]
@[simp] theorem Chip.layersOld_setVcm (c : Chip) (v : Vcm) : (c.setVcm v).layersOld = c.layersOld := by simp only [Chip.setVcm, Chip.layersOld_showVcm]
@[simp] theorem Chip.supply_setVcm (c : Chip) (v : Vcm) : (c.setVcm v).supply = c.supply := by simp only [Chip.setVcm, Chip.supply_showVcm]
@[simp] theorem Chip.host_setVcm (c : Chip) (v : Vcm) : (c.setVcm v).host = c.host := by simp only [Chip.setVcm, Chip.host_showVcm]
@[simp] theorem Chip.egress_setVcm (c : Chip) (v : Vcm) : (c.setVcm v).egress = c.egress := by simp only [Chip.setVcm, Chip.egress_showVcm]

end Sys2Proof.Machine
end

