-- ==== Sys2Proof/Laws/Act.lean ====
section
/-!
SUPPORT. Laws/Act.lean: everything a command's meaning can do to the state: it answers a next state, and acts on the chip
alone (OTP_PULSE on the fuses too), with the in-band interrupt following the chip; an ill-formed command changes nothing.
-/
namespace Sys2Proof.Machine

@[simp] theorem State.after_chip (s : State) (c : Chip) : (s.after c).chip = c := rfl
@[simp] theorem State.after_fuses (s : State) (c : Chip) : (s.after c).fuses = s.fuses := rfl
@[simp] theorem State.after_pending (s : State) (c : Chip) : (s.after c).pending = s.pending := rfl
@[simp] theorem State.after_irqDue (s : State) (c : Chip) : (s.after c).irqDue =
    (c.dev.portsAnswer && (s.irqDue || (c.irqRequested &&& ~~~s.chip.irqRequested) != 0)) := rfl

theorem act_wf {i : Instr} (h : i.wf = true) (f : Fuses → Chip → Chip) (s : State) :
    act i f s = .next (s.after (f s.fuses s.chip)) := by simp [act, h]

theorem act_illFormed {i : Instr} (h : i.wf = false) (f : Fuses → Chip → Chip) (s : State) :
    act i f s = .next s := by simp [act, h]

theorem actFuses_wf {i : Instr} (h : i.wf = true) (f : Fuses → Chip → Fuses × Chip) (s : State) :
    actFuses i f s = .next { s.after (f s.fuses s.chip).2 with fuses := (f s.fuses s.chip).1 } := by
  simp [actFuses, h]

theorem actFuses_illFormed {i : Instr} (h : i.wf = false) (f : Fuses → Chip → Fuses × Chip) (s : State) :
    actFuses i f s = .next s := by simp [actFuses, h]

/-- All that a next state of a command that leaves the fuses can be. -/
theorem act_next {i : Instr} {f : Fuses → Chip → Chip} {s t : State} (h : act i f s = .next t) :
    (i.wf = true ∧ t = s.after (f s.fuses s.chip)) ∨ (i.wf = false ∧ t = s) := by
  cases hw : i.wf
  · rw [act_illFormed hw] at h
    exact .inr ⟨rfl, by cases h; rfl⟩
  · rw [act_wf hw] at h
    exact .inl ⟨rfl, by cases h; rfl⟩

/-- All that a next state of OTP_PULSE can be. -/
theorem actFuses_next {i : Instr} {f : Fuses → Chip → Fuses × Chip} {s t : State} (h : actFuses i f s = .next t) :
    (i.wf = true ∧ t = { s.after (f s.fuses s.chip).2 with fuses := (f s.fuses s.chip).1 }) ∨ (i.wf = false ∧ t = s) := by
  cases hw : i.wf
  · rw [actFuses_illFormed hw] at h
    exact .inr ⟨rfl, by cases h; rfl⟩
  · rw [actFuses_wf hw] at h
    exact .inl ⟨rfl, by cases h; rfl⟩

end Sys2Proof.Machine
end

