-- ==== Sys2Proof/Laws/Frame.lean ====
section
/-!
SUPPORT. Laws/Frame.lean: which register fields each shared operation can change (`FieldsBut`), and that recording a fault
makes it the newest entry (`Logged`).
-/
namespace Sys2Proof

open Machine

theorem FieldsBut.refl (fs : List Fld) (c : Chip) : FieldsBut fs c c := fun _ _ => rfl

theorem FieldsBut.trans {fs : List Fld} {c d e : Chip} (h : FieldsBut fs c d) (k : FieldsBut fs d e) : FieldsBut fs c e :=
  fun f hf => (k f hf).trans (h f hf)

theorem FieldsBut.mono {fs gs : List Fld} {c d : Chip} (h : FieldsBut fs c d) (k : fs ⊆ gs) : FieldsBut gs c d :=
  fun f hf => h f fun g hg => hf g (k hg)

/-- A change outside the registers changes no field. -/
theorem FieldsBut.of_regs {c d : Chip} (fs : List Fld) (h : d.regs = c.regs) : FieldsBut fs c d := by
  intro f _
  simp only [Chip.fld, h]

theorem FieldsBut.set {fs : List Fld} {c d : Chip} (h : FieldsBut fs c d) {g : Fld} (x : Nat) (hg : g ∈ fs) :
    FieldsBut fs c (d.set g x) :=
  fun f hf => (Chip.fld_set_apart d x (hf g hg)).trans (h f hf)

theorem FieldsBut.setBit {fs : List Fld} {c d : Chip} (h : FieldsBut fs c d) {g : Fld} (b : Bool) (hg : g ∈ fs) :
    FieldsBut fs c (d.setBit g b) := h.set _ hg

theorem FieldsBut.raise {fs : List Fld} {c d : Chip} (h : FieldsBut fs c d) {g : Fld} (hg : g ∈ fs) :
    FieldsBut fs c (d.raise g) := h.set _ hg

theorem FieldsBut.count {fs : List Fld} {c d : Chip} (h : FieldsBut fs c d) {g : Fld} (n : Nat) (hg : g ∈ fs) :
    FieldsBut fs c (d.count g n) := h.set _ hg

theorem FieldsBut.countWrap {fs : List Fld} {c d : Chip} (h : FieldsBut fs c d) {g : Fld} (n : Nat) (hg : g ∈ fs) :
    FieldsBut fs c (d.countWrap g n) := h.set _ hg

theorem fieldOf_high (v : Word) {lo w : Nat} (h : 32 ≤ lo ∨ w = 0) : fieldOf v lo w = 0 := by
  rcases h with h | h
  · have : v.toNat < 2 ^ lo := Nat.lt_of_lt_of_le v.isLt (Nat.pow_le_pow_right (by omega) h)
    simp [fieldOf, Nat.div_eq_of_lt this]
  · simp [fieldOf, h, Nat.mod_one]

theorem Chip.fld_put_apart (c : Chip) {a : Nat} {f : Fld} (v : Word) (h : (⟨a, 0, 32⟩ : Fld).apart f = true) :
    (c.put a v).fld f = c.fld f := by
  by_cases ha : f.a = a
  · have h2 : 32 ≤ f.lo ∨ f.w = 0 := by
      simp [Fld.apart, ha.symm] at h
      omega
    simp only [Chip.fld, RegFile.fld, fieldOf_high _ h2]
  · exact Chip.fld_put_other c v ha

theorem FieldsBut.put {fs : List Fld} {c d : Chip} (h : FieldsBut fs c d) {a : Nat} (v : Word)
    (hg : (⟨a, 0, 32⟩ : Fld) ∈ fs) : FieldsBut fs c (d.put a v) :=
  fun f hf => (Chip.fld_put_apart d v (hf _ hg)).trans (h f hf)

theorem FieldsBut.record (c : Chip) (fatal : Bool) (code unit detail : Nat) :
    FieldsBut logFields c (c.record fatal code unit detail) := by
  intro f hf
  have h1 := hf F.FLT_LOG_HEAD.NEXT (by simp [logFields])
  have h2 := hf F.FLT_FIRST.CODE (by simp [logFields])
  have h3 := hf ⟨A.FLT_ACTIVE, 0, 32⟩ (by simp [logFields])
  unfold Chip.record
  extract_lets sev entry logged marked
  have hl : logged.fld f = c.fld f := by
    dsimp only [logged]
    split
    · split
      · rfl
      · exact Chip.fld_set_apart _ _ h1
    · exact Chip.fld_set_apart _ _ h1
  have hm : marked.fld f = c.fld f := (Chip.fld_put_apart _ _ h3).trans hl
  split
  · exact hl
  · split
    · exact (Chip.fld_set_apart _ _ h2).trans hm
    · exact hm

theorem FieldsBut.alert {fs : List Fld} {c d : Chip} (h : FieldsBut fs c d) (code unit detail : Nat)
    (hg : logFields ⊆ fs) : FieldsBut fs c (d.alert code unit detail) :=
  h.trans ((FieldsBut.record d false code unit detail).mono hg)

theorem logged_record (c : Chip) (fatal : Bool) (code unit detail : Nat) :
    Logged code unit (c.record fatal code unit detail) := by
  unfold Chip.record
  extract_lets sev entry logged marked
  have hl : Logged code unit logged := by
    dsimp only [logged]
    split
    · split
      · rename_i h
        exact ⟨_, _, rfl, h.1, h.2.1⟩
      · exact ⟨entry, _, rfl, rfl, rfl⟩
    · exact ⟨entry, _, rfl, rfl, rfl⟩
  split
  · exact hl
  · split
    · exact hl
    · exact hl

theorem logged_alert (c : Chip) (code unit detail : Nat) : Logged code unit (c.alert code unit detail) :=
  logged_record c false code unit detail

/-- An update that leaves the fault ring keeps the newest entry. -/
theorem Logged.of_faults {c d : Chip} {code unit : Nat} (h : Logged code unit c) (k : d.faults = c.faults) :
    Logged code unit d := by
  unfold Logged at *
  rw [k]
  exact h

theorem FieldsBut.showVcm (c : Chip) : FieldsBut
    [F.VCM_STATUS.CODE, F.VCM_STATUS.SUPPLY_OK, F.VCM_STATUS.HANDOVER, F.VCM_STATUS.RAMPING, F.VCM_STATUS.RANGE,
     F.VCM_STATUS.DRIVING, F.VCM_TARGET_FORCE.UA] c c.showVcm := by
  unfold Chip.showVcm
  exact (((((((FieldsBut.refl _ c).set _ (by simp)).setBit _ (by simp)).setBit _ (by simp)).setBit _ (by simp)).setBit _
    (by simp)).setBit _ (by simp)).set _ (by simp)

/-- Where its operands are well-formed, an `act` completes with the chip its meaning gives (for use after `Completes`, `exec`
and the meaning's name are unfolded). -/
theorem act_completes {i : Instr} {s : State} {f : Fuses → Chip → Chip} {post : Chip → Prop} (h : i.wf = true)
    (hp : post (f s.fuses s.chip)) :
    ∃ t, act i f s = .next t ∧ t.pending = s.pending ∧ t.fuses = s.fuses ∧ post t.chip :=
  ⟨_, act_wf h f s, rfl, rfl, hp⟩

end Sys2Proof
end

