-- ==== Sys2Proof/Laws/Exec.lean ====
section
/-!
SUPPORT. Laws/Exec.lean: all that `exec` can do with a command: its meaning acts on the chip alone, but for OTP_PULSE and IBI_REQUEST.
-/
namespace Sys2Proof.Machine

/-- A command is OTP_PULSE or IBI_REQUEST, or its meaning is an `act` of that command. -/
theorem exec_cases (i : Instr) :
    (∃ mv reads margin, i = .otpPulse mv reads margin) ∨ (∃ acked, i = .ibiRequest acked) ∨
      ∃ f, ∀ s, exec i s = act i f s := by
  cases i
  case otpPulse mv r m => exact .inl ⟨mv, r, m, rfl⟩
  case ibiRequest acked => exact .inr (.inl ⟨acked, rfl⟩)
  all_goals
    refine .inr (.inr ⟨?_, fun s => ?_⟩)
    rotate_left
    · dsimp only [exec]
      with_unfolding_all rfl

theorem exec_otpPulse (mv : Nat) (reads margin : Bool) (s : State) :
    exec (.otpPulse mv reads margin) s = actFuses (.otpPulse mv reads margin) (Sys2Proof.Machine.otpPulse mv reads margin) s :=
  rfl

/-- All that an in-band interrupt request can do: delivered, it answers the payload and is due no longer; else it waits. -/
theorem exec_ibiRequest (acked : Bool) (s : State) :
    exec (.ibiRequest acked) s = if s.ibiDelivers acked then
        .next { s with chip := s.chip.answer .i3c s.chip.ibiPayload, irqDue := false }
      else act (.ibiRequest acked) (fun _ c => c) s :=
  rfl

end Sys2Proof.Machine
end

