-- ==== Sys2Proof/Laws/Memory.lean ====
section
/-!
SUPPORT. Laws/Memory.lean: what a memory reads after a write, and that every memory operation keeps the canonical form.
-/
namespace Sys2Proof.Machine

/-! ### Cells -/

@[simp] theorem Mem.byte_setByte (m : Mem) (k l : Nat) (v : Byte) :
    (m.setByte k v).byte l = if l = k then v else m.byte l := Sparse.get_set _ _ _ _ _

@[simp] theorem Mem.check_setByte (m : Mem) (k l : Nat) (v : Byte) : (m.setByte k v).check l = m.check l := rfl

@[simp] theorem Mem.check_setCheck (m : Mem) (k l : Nat) (v : Byte) :
    (m.setCheck k v).check l = if l = k then v else m.check l := Sparse.get_set _ _ _ _ _

@[simp] theorem Mem.byte_setCheck (m : Mem) (k l : Nat) (v : Byte) : (m.setCheck k v).byte l = m.byte l := rfl

@[simp] theorem Mem.mapped_setByte (m : Mem) (k a : Nat) (v : Byte) : (m.setByte k v).mapped a = m.mapped a := rfl

@[simp] theorem Mem.mapped_setCheck (m : Mem) (k a : Nat) (v : Byte) : (m.setCheck k v).mapped a = m.mapped a := rfl

@[simp] theorem Mem.mapped_setMapped (m : Mem) (a b : Nat) (v : Bool) :
    (m.setMapped a v).mapped b = if b = a then v else m.mapped b := Sparse.get_set _ _ _ _ _

@[simp] theorem Mem.byte_setMapped (m : Mem) (k a : Nat) (v : Bool) : (m.setMapped a v).byte k = m.byte k := rfl

@[simp] theorem Mem.check_setMapped (m : Mem) (k a : Nat) (v : Bool) : (m.setMapped a v).check k = m.check k := rfl

/-! ### One byte and its check bits (R433 to R436) -/

@[simp] theorem Mem.byte_storeByte (m : Mem) (k l : Nat) (b : MByte) :
    (m.storeByte k b).byte l = if l = k then b.v else m.byte l := Mem.byte_setByte m k l b.v

@[simp] theorem Mem.check_storeByte (m : Mem) (k l : Nat) (b : MByte) :
    (m.storeByte k b).check l = if l = k then secEncode b.v b.p else m.check l :=
  Mem.check_setCheck (m.setByte k b.v) k l _

@[simp] theorem Mem.mapped_storeByte (m : Mem) (k a : Nat) (b : MByte) : (m.storeByte k b).mapped a = m.mapped a := rfl

/-- Stored bytes leave the bytes outside them. -/
theorem Mem.byte_storeBytes_outside (m : Mem) (k l : Nat) (bs : List MByte) (h : l < k ∨ k + bs.length ≤ l) :
    (m.storeBytes k bs).byte l = m.byte l := by
  induction bs generalizing m k with
  | nil => rfl
  | cons b bs ih =>
    simp only [List.length_cons] at h
    rw [Mem.storeBytes, ih _ _ (by omega), Mem.byte_storeByte, if_neg (by omega)]

/-- Stored bytes leave the check bits outside them. -/
theorem Mem.check_storeBytes_outside (m : Mem) (k l : Nat) (bs : List MByte) (h : l < k ∨ k + bs.length ≤ l) :
    (m.storeBytes k bs).check l = m.check l := by
  induction bs generalizing m k with
  | nil => rfl
  | cons b bs ih =>
    simp only [List.length_cons] at h
    rw [Mem.storeBytes, ih _ _ (by omega), Mem.check_storeByte, if_neg (by omega)]

/-- A stored byte is there. -/
theorem Mem.byte_storeBytes (m : Mem) (k i : Nat) (bs : List MByte) (h : i < bs.length) :
    (m.storeBytes k bs).byte (k + i) = bs[i].v := by
  induction bs generalizing m k i with
  | nil => simp at h
  | cons b bs ih =>
    cases i with
    | zero => rw [Mem.storeBytes, Mem.byte_storeBytes_outside _ _ _ _ (by omega)]; simp
    | succ i =>
      have := ih (m.storeByte k b) (k + 1) i (by simpa using h)
      rw [Mem.storeBytes, show k + (i + 1) = k + 1 + i by omega, this]
      rfl

/-- A stored byte's check bits are there. -/
theorem Mem.check_storeBytes (m : Mem) (k i : Nat) (bs : List MByte) (h : i < bs.length) :
    (m.storeBytes k bs).check (k + i) = secEncode bs[i].v bs[i].p := by
  induction bs generalizing m k i with
  | nil => simp at h
  | cons b bs ih =>
    cases i with
    | zero => rw [Mem.storeBytes, Mem.check_storeBytes_outside _ _ _ _ (by omega)]; simp
    | succ i =>
      have := ih (m.storeByte k b) (k + 1) i (by simpa using h)
      rw [Mem.storeBytes, show k + (i + 1) = k + 1 + i by omega, this]
      rfl

/-! ### The canonical form -/

theorem Mem.wf_iff (m : Mem) :
    m.wf = true ↔ Sparse.wf cellDefault m.data = true ∧ Sparse.wf cellDefault m.chk = true ∧
      Sparse.wf (fun _ => false) m.lines = true := by
  simp [Mem.wf, and_assoc]

theorem Mem.wf_setByte {m : Mem} (k : Nat) (v : Byte) (h : m.wf = true) : (m.setByte k v).wf = true := by
  rw [Mem.wf_iff] at h ⊢
  exact ⟨Sparse.wf_set _ _ _ h.1, h.2⟩

theorem Mem.wf_setCheck {m : Mem} (k : Nat) (v : Byte) (h : m.wf = true) : (m.setCheck k v).wf = true := by
  rw [Mem.wf_iff] at h ⊢
  exact ⟨h.1, Sparse.wf_set _ _ _ h.2.1, h.2.2⟩

theorem Mem.wf_setMapped {m : Mem} (a : Nat) (b : Bool) (h : m.wf = true) : (m.setMapped a b).wf = true := by
  rw [Mem.wf_iff] at h ⊢
  exact ⟨h.1, h.2.1, Sparse.wf_set _ _ _ h.2.2⟩

theorem Mem.wf_flip {m : Mem} (u : Upset) (h : m.wf = true) : (m.flip u).wf = true := by
  unfold Mem.flip
  split
  · exact Mem.wf_setCheck _ _ h
  · exact Mem.wf_setByte _ _ h

theorem Mem.wf_storeByte {m : Mem} (k : Nat) (b : MByte) (h : m.wf = true) : (m.storeByte k b).wf = true :=
  Mem.wf_setCheck (m := m.setByte k b.v) k (secEncode b.v b.p) (Mem.wf_setByte k b.v h)

theorem Mem.wf_storeBytes {m : Mem} (k : Nat) (bs : List MByte) (h : m.wf = true) : (m.storeBytes k bs).wf = true := by
  induction bs generalizing m k with
  | nil => exact h
  | cons b bs ih => exact ih _ (Mem.wf_storeByte k b h)

/-- A fold of steps that keep a property keeps it. -/
theorem foldl_keeps {α β : Type} (P : α → Prop) (f : α → β → α) (hf : ∀ a b, P a → P (f a b)) (l : List β) (a : α)
    (h : P a) : P (l.foldl f a) := by
  induction l generalizing a with
  | nil => exact h
  | cons b l ih => exact ih _ (hf _ _ h)

theorem Mem.wf_storeCodeword {m : Mem} (lost : Option Nat) (a j : Nat) (ds : List Byte) (h : m.wf = true) :
    (m.storeCodeword lost a j ds).wf = true := by
  unfold Mem.storeCodeword
  extract_lets e m1 m2
  have h1 : m1.wf = true := by
    refine foldl_keeps (fun m : Mem => m.wf = true) _ ?_ ds.zipIdx m h
    intro m d hm
    split
    · exact hm
    · exact Mem.wf_setByte _ _ hm
  have h2 : m2.wf = true := by
    unfold m2
    split
    · exact h1
    · exact Mem.wf_setCheck _ _ h1
  split
  · exact h2
  · exact Mem.wf_setCheck _ _ h2

theorem Mem.wf_scrubBack (m : Mem) (l : List (Nat × List Byte)) : Mem.wf { m with scrubBack := l } = m.wf := rfl

theorem Mem.wf_storeLine {m : Mem} (lost : Option Nat) (a : Nat) (bs : List Byte) (h : m.wf = true) :
    (m.storeLine lost a bs).wf = true := by
  unfold Mem.storeLine
  extract_lets m1
  rw [Mem.wf_scrubBack]
  refine foldl_keeps (fun m : Mem => m.wf = true) _ ?_ (List.range 8) m h
  intro m j hm
  exact Mem.wf_storeCodeword _ _ _ _ hm

theorem Chip.wf_upset {c : Chip} (us : List Upset) (h : c.mem.wf = true) : (c.upset us).mem.wf = true := by
  refine foldl_keeps (fun m : Mem => m.wf = true) Mem.flip ?_ us c.mem h
  intro m u hm
  exact Mem.wf_flip u hm

/-! ### Reads keep the cells; every access keeps the canonical form -/

@[simp] theorem Chip.mem_ceRate (c : Chip) (n t : Fld) (code : Nat) : (c.ceRate n t code).mem = c.mem := by
  unfold Chip.ceRate
  split <;> simp

@[simp] theorem Chip.mem_sramCe (c : Chip) (k : Nat) (v : Byte) :
    (c.sramCe k v).mem = { c.mem with writeBack := c.mem.writeBack ++ [(k, v)] } := by
  simp [Chip.sramCe]

@[simp] theorem Chip.mem_sramUe (c : Chip) (k : Nat) (f : Bool) : (c.sramUe k f).mem = c.mem := by
  unfold Chip.sramUe
  split <;> simp

theorem Mem.wf_writeBack (m : Mem) (l : List Host.Cell) : Mem.wf { m with writeBack := l } = m.wf := rfl

theorem Chip.wf_sramRead (fault : Bool) (k n : Nat) {c : Chip} (h : c.mem.wf = true) :
    (Chip.sramRead fault k n c).2.mem.wf = true := by
  induction n generalizing k c with
  | zero => exact h
  | succ n ih =>
    unfold Chip.sramRead
    dsimp only
    apply ih
    split
    · exact h
    · rw [Chip.mem_sramCe, Mem.wf_writeBack]; exact h
    · rw [Chip.mem_sramUe]; exact h

theorem Chip.foldl_mem {β : Type} (f : Chip → β → Chip) (hf : ∀ c b, (f c b).mem = c.mem) (l : List β) (c : Chip) :
    (l.foldl f c).mem = c.mem := by
  induction l generalizing c with
  | nil => rfl
  | cons b l ih => rw [List.foldl_cons, ih, hf]

@[simp] theorem Chip.mem_plainCe (c : Chip) (a : Nat) (dies : List Nat) : (c.plainCe a dies).mem = c.mem := by
  simp only [Chip.plainCe, Chip.mem_ceRate, Chip.mem_set]
  rw [Chip.foldl_mem _ (fun _ _ => Chip.mem_count _ _ _)]
  simp

@[simp] theorem Chip.mem_plainUe (c : Chip) (a : Nat) (f : Bool) : (c.plainUe a f).mem = c.mem := by
  unfold Chip.plainUe
  split <;> simp

/-- Reading a line of the Plain changes no memory. -/
@[simp] theorem Chip.mem_plainReadLine (c : Chip) (who : PlainReader) (a : Nat) :
    (c.plainReadLine who a).2.mem = c.mem := by
  unfold Chip.plainReadLine
  split
  · simp
  · dsimp only
    split
    · split <;> split <;> simp
    · cases who <;> simp

@[simp] theorem Chip.mem_plainReadLines (who : PlainReader) (a n : Nat) (c : Chip) :
    (Chip.plainReadLines who a n c).2.mem = c.mem := by
  induction n generalizing a c with
  | zero => rfl
  | succ n ih =>
    unfold Chip.plainReadLines
    dsimp only
    rw [ih, Chip.mem_plainReadLine]

theorem Chip.wf_memRead (who : PlainReader) (mem off n : Nat) {c : Chip} (h : c.mem.wf = true) :
    (c.memRead who mem off n).2.mem.wf = true := by
  unfold Chip.memRead
  dsimp only
  split
  · split
    · exact h
    · dsimp only
      rw [Chip.mem_plainReadLines]
      exact h
  · exact Chip.wf_sramRead _ _ _ h

theorem Chip.wf_plainWriteLine {c : Chip} (a : Nat) (bs : List MByte) (h : c.mem.wf = true) :
    (c.plainWriteLine a bs).mem.wf = true := by
  unfold Chip.plainWriteLine
  dsimp only
  split
  · rw [Chip.mem_alertOnce, Chip.mem_raise, Chip.mem_set, Chip.mem_tallyAdd]
    exact Mem.wf_setMapped _ _ (Mem.wf_storeLine _ _ _ h)
  · exact Mem.wf_setMapped _ _ (Mem.wf_storeLine _ _ _ h)

theorem Chip.wf_plainWriteLines (n : Nat) {c : Chip} (a : Nat) (bs : List MByte) (h : c.mem.wf = true) :
    (c.plainWriteLines a n bs).mem.wf = true := by
  induction n generalizing c a bs with
  | zero => exact h
  | succ n ih =>
    unfold Chip.plainWriteLines
    apply ih
    unfold Chip.plainEngineWrite
    split
    · rw [Chip.mem_alert]; exact h
    · exact Chip.wf_plainWriteLine _ _ h

theorem Chip.wf_memWrite {c : Chip} (mem off : Nat) (bs : List MByte) (h : c.mem.wf = true) :
    (c.memWrite mem off bs).mem.wf = true := by
  unfold Chip.memWrite
  dsimp only
  split
  · exact Chip.wf_plainWriteLines _ _ _ h
  · exact Mem.wf_storeBytes _ _ h

/-- The memory after reset is in canonical form. -/
theorem Mem.wf_fresh : Mem.fresh.wf = true := rfl

end Sys2Proof.Machine
end

