-- ==== Sys2Proof/Laws/Stop.lean ====
section
/-!
SUPPORT. Laws/Stop.lean: all that the shared operations on the way out of operation can do: the parts of the chip that they
write, and nothing else.
-/
namespace Sys2Proof.Machine

theorem laneIdle_regs (c : Chip) (lane : Nat) : Chip.RegsOnly c (laneIdle c lane) := by
  unfold laneIdle
  split
  · exact ((((Chip.RegsOnly.refl c).set _ _).setBit _ _).setBit _ _).setBit _ _
  · split
    · exact (((Chip.RegsOnly.refl c).set _ _).setBit _ _).setBit _ _
    · exact ((((Chip.RegsOnly.refl c).set _ _).set _ _).setBit _ _).setBit _ _

theorem Chip.RegsOnly.foldl {α : Type} {f : Chip → α → Chip} (hf : ∀ c a, Chip.RegsOnly c (f c a)) (as : List α) (c : Chip) :
    Chip.RegsOnly c (as.foldl f c) := by
  induction as generalizing c with
  | nil => exact Chip.RegsOnly.refl c
  | cons a as ih => exact (hf c a).trans (ih (f c a))

theorem Chip.stopEngines_does (c : Chip) : ∃ r, c.stopEngines =
    { c with regs := r
             sched := { c.sched with lanes := [], starting := false, drain := false }
             fabric := { c.fabric with stalled := [] } } :=
  ⟨_, Chip.RegsOnly.foldl laneIdle_regs _ _⟩

/-- The registers that the end of operation writes beside those of the lanes. -/
def endRegs (d : Chip) : Chip :=
  ((((((d.setBit F.TICK_STATUS.RUNNING false).set F.TICK_STATUS.SLOT 0).setBit F.PIX_STATUS.ACTIVE false).setBit
    F.PIX_STATUS.EXPOSED false).setBit F.DEV_STATE.STOPPING false).setBit F.FR_STATUS.ACTIVE false).disarmEpoch

theorem endRegs_regs (d : Chip) : Chip.RegsOnly d (endRegs d) :=
  (((((((Chip.RegsOnly.refl d).setBit _ _).set _ _).setBit _ _).setBit _ _).setBit _ _).setBit _ _).setBit _ _

theorem Chip.endOperation_does (c : Chip) : ∃ r, c.endOperation =
    { c with regs := r
             sched := { c.sched with lanes := [], starting := false, drain := false, fsyncOut := false }
             fabric := { c.fabric with stalled := [] }
             pixel := { c.pixel with strobe := false, openLong := 0, openShort := 0 }
             terrace := { c.terrace with samples := [] }
             front := [] } := by
  obtain ⟨r, h⟩ := Chip.stopEngines_does c
  have e : c.endOperation = endRegs { c.stopEngines with
      sched := { c.stopEngines.sched with fsyncOut := false }
      pixel := { c.stopEngines.pixel with strobe := false, openLong := 0, openShort := 0 }
      terrace := { c.stopEngines.terrace with samples := [] }
      front := [] } := rfl
  rw [e, h]
  exact ⟨_, endRegs_regs _⟩

theorem Chip.setVcm_does (c : Chip) (v : Vcm) : ∃ r, c.setVcm v = { c with regs := r, loop := { c.loop with vcm := v } } :=
  ⟨_, Chip.showVcm_eq { c with loop := { c.loop with vcm := v } }⟩

theorem Chip.vcmRamp_does (c : Chip) (cause : Nat) :
    ∃ r v, c.vcmRamp cause = { c with regs := r, loop := { c.loop with vcm := v } } := by
  unfold Chip.vcmRamp
  extract_lets v
  split
  · obtain ⟨r, h⟩ := Chip.setVcm_does (c.set F.VCM_STATUS.Z_CAUSE cause)
      { v with bridge := .rampOff cause, handover := false, waiting := false }
    exact ⟨r, _, h⟩
  · obtain ⟨r, h⟩ := Chip.setVcm_does c { v with bridge := .rampOff cause, handover := false, waiting := false }
    exact ⟨r, _, h⟩
  · obtain ⟨r, h⟩ := Chip.setVcm_does c { v with waiting := false }
    exact ⟨r, _, h⟩
  · exact ⟨c.regs, c.loop.vcm, rfl⟩

theorem Chip.csiDown_does (c : Chip) : ∃ r l, c.csiDown = { c with regs := r, host := { c.host with csi := l } } := by
  unfold Chip.csiDown
  split
  · exact ⟨c.regs, c.host.csi, rfl⟩
  · exact ⟨_, [], (((Chip.RegsOnly.refl { c with host := { c.host with csi := [] } }).set _ _).setBit _ _).trans
      (Chip.csiEvent_eq _ _)⟩

theorem Chip.dropLoad_does (c : Chip) :
    ∃ r b, c.dropLoad = { c with regs := r, loader := { c.loader with load := none, hot := none, pushEnded := b } } := by
  unfold Chip.dropLoad
  split <;> rename_i h <;> dsimp only [Chip.put, Chip.setBit, Chip.set] <;> split <;> rename_i k
  · exact ⟨c.regs, c.loader.pushEnded, by rw [← h, ← k]⟩
  · exact ⟨_, _, by rw [← h]⟩
  · exact ⟨_, _, by rw [← k]⟩
  · exact ⟨_, _, rfl⟩

theorem Chip.scrubEnd_does (c : Chip) (n : Nat) : ∃ r, c.scrubEnd n = { c with regs := r, scrub := none } := by
  unfold Chip.scrubEnd
  split
  · rename_i h
    exact ⟨c.regs, by rw [← h]⟩
  · exact ⟨_, rfl⟩

theorem Chip.hostLineDrop_does (c : Chip) :
    ∃ r, c.hostLineDrop = { c with regs := r, mem := { c.mem with hostLine := none } } := by
  unfold Chip.hostLineDrop
  split
  · rename_i h
    exact ⟨c.regs, by rw [← h]⟩
  · exact ⟨_, rfl⟩

/-- A fatal fault from FILL to DEGRADED (R615, R616): the operations that it is made of. -/
theorem Chip.fatal_live (c : Chip) (code unit detail : Nat) (h : c.dev.live = true) :
    c.fatal code unit detail =
      ((((((((c.record true code unit detail).set F.FLT_STOP.CODE code).endOperation).vcmRamp 2).csiDown).scrubEnd
        2).hostLineDrop).dropLoad).enter .faultStop := by
  simp only [Chip.fatal, h, ↓reduceIte]

/-! ### Every engine stops -/

@[simp] theorem Chip.dev_stopEngines (c : Chip) : c.stopEngines.dev = c.dev := by
  obtain ⟨r, h⟩ := Chip.stopEngines_does c
  rw [h]
@[simp] theorem Chip.mosaic_stopEngines (c : Chip) : c.stopEngines.mosaic = c.mosaic := by
  obtain ⟨r, h⟩ := Chip.stopEngines_does c
  rw [h]
@[simp] theorem Chip.aon_stopEngines (c : Chip) : c.stopEngines.aon = c.aon := by
  obtain ⟨r, h⟩ := Chip.stopEngines_does c
  rw [h]
@[simp] theorem Chip.startup_stopEngines (c : Chip) : c.stopEngines.startup = c.startup := by
  obtain ⟨r, h⟩ := Chip.stopEngines_does c
  rw [h]
@[simp] theorem Chip.force_stopEngines (c : Chip) : c.stopEngines.force = c.force := by
  obtain ⟨r, h⟩ := Chip.stopEngines_does c
  rw [h]
@[simp] theorem Chip.tally_stopEngines (c : Chip) : c.stopEngines.tally = c.tally := by
  obtain ⟨r, h⟩ := Chip.stopEngines_does c
  rw [h]
@[simp] theorem Chip.faults_stopEngines (c : Chip) : c.stopEngines.faults = c.faults := by
  obtain ⟨r, h⟩ := Chip.stopEngines_does c
  rw [h]
@[simp] theorem Chip.once_stopEngines (c : Chip) : c.stopEngines.once = c.once := by
  obtain ⟨r, h⟩ := Chip.stopEngines_does c
  rw [h]
@[simp] theorem Chip.stamp_stopEngines (c : Chip) : c.stopEngines.stamp = c.stamp := by
  obtain ⟨r, h⟩ := Chip.stopEngines_does c
  rw [h]
@[simp] theorem Chip.now_stopEngines (c : Chip) : c.stopEngines.now = c.now := by
  obtain ⟨r, h⟩ := Chip.stopEngines_does c
  rw [h]
@[simp] theorem Chip.timebase_stopEngines (c : Chip) : c.stopEngines.timebase = c.timebase := by
  obtain ⟨r, h⟩ := Chip.stopEngines_does c
  rw [h]
@[simp] theorem Chip.draws_stopEngines (c : Chip) : c.stopEngines.draws = c.draws := by
  obtain ⟨r, h⟩ := Chip.stopEngines_does c
  rw [h]
@[simp] theorem Chip.sched_stopEngines (c : Chip) : c.stopEngines.sched = { c.sched with lanes := [], starting := false, drain := false } := by
  obtain ⟨r, h⟩ := Chip.stopEngines_does c
  rw [h]
@[simp] theorem Chip.mem_stopEngines (c : Chip) : c.stopEngines.mem = c.mem := by
  obtain ⟨r, h⟩ := Chip.stopEngines_does c
  rw [h]
@[simp] theorem Chip.eccWindow_stopEngines (c : Chip) : c.stopEngines.eccWindow = c.eccWindow := by
  obtain ⟨r, h⟩ := Chip.stopEngines_does c
  rw [h]
@[simp] theorem Chip.scrub_stopEngines (c : Chip) : c.stopEngines.scrub = c.scrub := by
  obtain ⟨r, h⟩ := Chip.stopEngines_does c
  rw [h]
@[simp] theorem Chip.fabric_stopEngines (c : Chip) : c.stopEngines.fabric = { c.fabric with stalled := [] } := by
  obtain ⟨r, h⟩ := Chip.stopEngines_does c
  rw [h]
@[simp] theorem Chip.otp_stopEngines (c : Chip) : c.stopEngines.otp = c.otp := by
  obtain ⟨r, h⟩ := Chip.stopEngines_does c
  rw [h]
@[simp] theorem Chip.loader_stopEngines (c : Chip) : c.stopEngines.loader = c.loader := by
  obtain ⟨r, h⟩ := Chip.stopEngines_does c
  rw [h]
@[simp] theorem Chip.pixel_stopEngines (c : Chip) : c.stopEngines.pixel = c.pixel := by
  obtain ⟨r, h⟩ := Chip.stopEngines_does c
  rw [h]
@[simp] theorem Chip.terrace_stopEngines (c : Chip) : c.stopEngines.terrace = c.terrace := by
  obtain ⟨r, h⟩ := Chip.stopEngines_does c
  rw [h]
@[simp] theorem Chip.survey_stopEngines (c : Chip) : c.stopEngines.survey = c.survey := by
  obtain ⟨r, h⟩ := Chip.stopEngines_does c
  rw [h]
@[simp] theorem Chip.front_stopEngines (c : Chip) : c.stopEngines.front = c.front := by
  obtain ⟨r, h⟩ := Chip.stopEngines_does c
  rw [h]
@[simp] theorem Chip.islands_stopEngines (c : Chip) : c.stopEngines.islands = c.islands := by
  obtain ⟨r, h⟩ := Chip.stopEngines_does c
  rw [h]
@[simp] theorem Chip.layers_stopEngines (c : Chip) : c.stopEngines.layers = c.layers := by
  obtain ⟨r, h⟩ := Chip.stopEngines_does c
  rw [h]
@[simp] theorem Chip.layersOld_stopEngines (c : Chip) : c.stopEngines.layersOld = c.layersOld := by
  obtain ⟨r, h⟩ := Chip.stopEngines_does c
  rw [h]
@[simp] theorem Chip.supply_stopEngines (c : Chip) : c.stopEngines.supply = c.supply := by
  obtain ⟨r, h⟩ := Chip.stopEngines_does c
  rw [h]
@[simp] theorem Chip.loop_stopEngines (c : Chip) : c.stopEngines.loop = c.loop := by
  obtain ⟨r, h⟩ := Chip.stopEngines_does c
  rw [h]
@[simp] theorem Chip.host_stopEngines (c : Chip) : c.stopEngines.host = c.host := by
  obtain ⟨r, h⟩ := Chip.stopEngines_does c
  rw [h]
@[simp] theorem Chip.egress_stopEngines (c : Chip) : c.stopEngines.egress = c.egress := by
  obtain ⟨r, h⟩ := Chip.stopEngines_does c
  rw [h]

/-! ### Operation ends -/

@[simp] theorem Chip.dev_endOperation (c : Chip) : c.endOperation.dev = c.dev := by
  obtain ⟨r, h⟩ := Chip.endOperation_does c
  rw [h]
@[simp] theorem Chip.mosaic_endOperation (c : Chip) : c.endOperation.mosaic = c.mosaic := by
  obtain ⟨r, h⟩ := Chip.endOperation_does c
  rw [h]
@[simp] theorem Chip.aon_endOperation (c : Chip) : c.endOperation.aon = c.aon := by
  obtain ⟨r, h⟩ := Chip.endOperation_does c
  rw [h]
@[simp] theorem Chip.startup_endOperation (c : Chip) : c.endOperation.startup = c.startup := by
  obtain ⟨r, h⟩ := Chip.endOperation_does c
  rw [h]
@[simp] theorem Chip.force_endOperation (c : Chip) : c.endOperation.force = c.force := by
  obtain ⟨r, h⟩ := Chip.endOperation_does c
  rw [h]
@[simp] theorem Chip.tally_endOperation (c : Chip) : c.endOperation.tally = c.tally := by
  obtain ⟨r, h⟩ := Chip.endOperation_does c
  rw [h]
@[simp] theorem Chip.faults_endOperation (c : Chip) : c.endOperation.faults = c.faults := by
  obtain ⟨r, h⟩ := Chip.endOperation_does c
  rw [h]
@[simp] theorem Chip.once_endOperation (c : Chip) : c.endOperation.once = c.once := by
  obtain ⟨r, h⟩ := Chip.endOperation_does c
  rw [h]
@[simp] theorem Chip.stamp_endOperation (c : Chip) : c.endOperation.stamp = c.stamp := by
  obtain ⟨r, h⟩ := Chip.endOperation_does c
  rw [h]
@[simp] theorem Chip.now_endOperation (c : Chip) : c.endOperation.now = c.now := by
  obtain ⟨r, h⟩ := Chip.endOperation_does c
  rw [h]
@[simp] theorem Chip.timebase_endOperation (c : Chip) : c.endOperation.timebase = c.timebase := by
  obtain ⟨r, h⟩ := Chip.endOperation_does c
  rw [h]
@[simp] theorem Chip.draws_endOperation (c : Chip) : c.endOperation.draws = c.draws := by
  obtain ⟨r, h⟩ := Chip.endOperation_does c
  rw [h]
@[simp] theorem Chip.sched_endOperation (c : Chip) : c.endOperation.sched = { c.sched with lanes := [], starting := false, drain := false, fsyncOut := false } := by
  obtain ⟨r, h⟩ := Chip.endOperation_does c
  rw [h]
@[simp] theorem Chip.mem_endOperation (c : Chip) : c.endOperation.mem = c.mem := by
  obtain ⟨r, h⟩ := Chip.endOperation_does c
  rw [h]
@[simp] theorem Chip.eccWindow_endOperation (c : Chip) : c.endOperation.eccWindow = c.eccWindow := by
  obtain ⟨r, h⟩ := Chip.endOperation_does c
  rw [h]
@[simp] theorem Chip.scrub_endOperation (c : Chip) : c.endOperation.scrub = c.scrub := by
  obtain ⟨r, h⟩ := Chip.endOperation_does c
  rw [h]
@[simp] theorem Chip.fabric_endOperation (c : Chip) : c.endOperation.fabric = { c.fabric with stalled := [] } := by
  obtain ⟨r, h⟩ := Chip.endOperation_does c
  rw [h]
@[simp] theorem Chip.otp_endOperation (c : Chip) : c.endOperation.otp = c.otp := by
  obtain ⟨r, h⟩ := Chip.endOperation_does c
  rw [h]
@[simp] theorem Chip.loader_endOperation (c : Chip) : c.endOperation.loader = c.loader := by
  obtain ⟨r, h⟩ := Chip.endOperation_does c
  rw [h]
@[simp] theorem Chip.pixel_endOperation (c : Chip) : c.endOperation.pixel = { c.pixel with strobe := false, openLong := 0, openShort := 0 } := by
  obtain ⟨r, h⟩ := Chip.endOperation_does c
  rw [h]
@[simp] theorem Chip.terrace_endOperation (c : Chip) : c.endOperation.terrace = { c.terrace with samples := [] } := by
  obtain ⟨r, h⟩ := Chip.endOperation_does c
  rw [h]
@[simp] theorem Chip.survey_endOperation (c : Chip) : c.endOperation.survey = c.survey := by
  obtain ⟨r, h⟩ := Chip.endOperation_does c
  rw [h]
@[simp] theorem Chip.front_endOperation (c : Chip) : c.endOperation.front = [] := by
  obtain ⟨r, h⟩ := Chip.endOperation_does c
  rw [h]
@[simp] theorem Chip.islands_endOperation (c : Chip) : c.endOperation.islands = c.islands := by
  obtain ⟨r, h⟩ := Chip.endOperation_does c
  rw [h]
@[simp] theorem Chip.layers_endOperation (c : Chip) : c.endOperation.layers = c.layers := by
  obtain ⟨r, h⟩ := Chip.endOperation_does c
  rw [h]
@[simp] theorem Chip.layersOld_endOperation (c : Chip) : c.endOperation.layersOld = c.layersOld := by
  obtain ⟨r, h⟩ := Chip.endOperation_does c
  rw [h]
@[simp] theorem Chip.supply_endOperation (c : Chip) : c.endOperation.supply = c.supply := by
  obtain ⟨r, h⟩ := Chip.endOperation_does c
  rw [h]
@[simp] theorem Chip.loop_endOperation (c : Chip) : c.endOperation.loop = c.loop := by
  obtain ⟨r, h⟩ := Chip.endOperation_does c
  rw [h]
@[simp] theorem Chip.host_endOperation (c : Chip) : c.endOperation.host = c.host := by
  obtain ⟨r, h⟩ := Chip.endOperation_does c
  rw [h]
@[simp] theorem Chip.egress_endOperation (c : Chip) : c.endOperation.egress = c.egress := by
  obtain ⟨r, h⟩ := Chip.endOperation_does c
  rw [h]

/-! ### A hardware ramp of the lens driver begins -/

@[simp] theorem Chip.dev_vcmRamp (c : Chip) (cause : Nat) : (c.vcmRamp cause).dev = c.dev := by
  obtain ⟨r, v, h⟩ := Chip.vcmRamp_does c cause
  rw [h]
@[simp] theorem Chip.mosaic_vcmRamp (c : Chip) (cause : Nat) : (c.vcmRamp cause).mosaic = c.mosaic := by
  obtain ⟨r, v, h⟩ := Chip.vcmRamp_does c cause
  rw [h]
@[simp] theorem Chip.aon_vcmRamp (c : Chip) (cause : Nat) : (c.vcmRamp cause).aon = c.aon := by
  obtain ⟨r, v, h⟩ := Chip.vcmRamp_does c cause
  rw [h]
@[simp] theorem Chip.startup_vcmRamp (c : Chip) (cause : Nat) : (c.vcmRamp cause).startup = c.startup := by
  obtain ⟨r, v, h⟩ := Chip.vcmRamp_does c cause
  rw [h]
@[simp] theorem Chip.force_vcmRamp (c : Chip) (cause : Nat) : (c.vcmRamp cause).force = c.force := by
  obtain ⟨r, v, h⟩ := Chip.vcmRamp_does c cause
  rw [h]
@[simp] theorem Chip.tally_vcmRamp (c : Chip) (cause : Nat) : (c.vcmRamp cause).tally = c.tally := by
  obtain ⟨r, v, h⟩ := Chip.vcmRamp_does c cause
  rw [h]
@[simp] theorem Chip.faults_vcmRamp (c : Chip) (cause : Nat) : (c.vcmRamp cause).faults = c.faults := by
  obtain ⟨r, v, h⟩ := Chip.vcmRamp_does c cause
  rw [h]
@[simp] theorem Chip.once_vcmRamp (c : Chip) (cause : Nat) : (c.vcmRamp cause).once = c.once := by
  obtain ⟨r, v, h⟩ := Chip.vcmRamp_does c cause
  rw [h]
@[simp] theorem Chip.stamp_vcmRamp (c : Chip) (cause : Nat) : (c.vcmRamp cause).stamp = c.stamp := by
  obtain ⟨r, v, h⟩ := Chip.vcmRamp_does c cause
  rw [h]
@[simp] theorem Chip.now_vcmRamp (c : Chip) (cause : Nat) : (c.vcmRamp cause).now = c.now := by
  obtain ⟨r, v, h⟩ := Chip.vcmRamp_does c cause
  rw [h]
@[simp] theorem Chip.timebase_vcmRamp (c : Chip) (cause : Nat) : (c.vcmRamp cause).timebase = c.timebase := by
  obtain ⟨r, v, h⟩ := Chip.vcmRamp_does c cause
  rw [h]
@[simp] theorem Chip.draws_vcmRamp (c : Chip) (cause : Nat) : (c.vcmRamp cause).draws = c.draws := by
  obtain ⟨r, v, h⟩ := Chip.vcmRamp_does c cause
  rw [h]
@[simp] theorem Chip.sched_vcmRamp (c : Chip) (cause : Nat) : (c.vcmRamp cause).sched = c.sched := by
  obtain ⟨r, v, h⟩ := Chip.vcmRamp_does c cause
  rw [h]
@[simp] theorem Chip.mem_vcmRamp (c : Chip) (cause : Nat) : (c.vcmRamp cause).mem = c.mem := by
  obtain ⟨r, v, h⟩ := Chip.vcmRamp_does c cause
  rw [h]
@[simp] theorem Chip.eccWindow_vcmRamp (c : Chip) (cause : Nat) : (c.vcmRamp cause).eccWindow = c.eccWindow := by
  obtain ⟨r, v, h⟩ := Chip.vcmRamp_does c cause
  rw [h]
@[simp] theorem Chip.scrub_vcmRamp (c : Chip) (cause : Nat) : (c.vcmRamp cause).scrub = c.scrub := by
  obtain ⟨r, v, h⟩ := Chip.vcmRamp_does c cause
  rw [h]
@[simp] theorem Chip.fabric_vcmRamp (c : Chip) (cause : Nat) : (c.vcmRamp cause).fabric = c.fabric := by
  obtain ⟨r, v, h⟩ := Chip.vcmRamp_does c cause
  rw [h]
@[simp] theorem Chip.otp_vcmRamp (c : Chip) (cause : Nat) : (c.vcmRamp cause).otp = c.otp := by
  obtain ⟨r, v, h⟩ := Chip.vcmRamp_does c cause
  rw [h]
@[simp] theorem Chip.loader_vcmRamp (c : Chip) (cause : Nat) : (c.vcmRamp cause).loader = c.loader := by
  obtain ⟨r, v, h⟩ := Chip.vcmRamp_does c cause
  rw [h]
@[simp] theorem Chip.pixel_vcmRamp (c : Chip) (cause : Nat) : (c.vcmRamp cause).pixel = c.pixel := by
  obtain ⟨r, v, h⟩ := Chip.vcmRamp_does c cause
  rw [h]
@[simp] theorem Chip.terrace_vcmRamp (c : Chip) (cause : Nat) : (c.vcmRamp cause).terrace = c.terrace := by
  obtain ⟨r, v, h⟩ := Chip.vcmRamp_does c cause
  rw [h]
@[simp] theorem Chip.survey_vcmRamp (c : Chip) (cause : Nat) : (c.vcmRamp cause).survey = c.survey := by
  obtain ⟨r, v, h⟩ := Chip.vcmRamp_does c cause
  rw [h]
@[simp] theorem Chip.front_vcmRamp (c : Chip) (cause : Nat) : (c.vcmRamp cause).front = c.front := by
  obtain ⟨r, v, h⟩ := Chip.vcmRamp_does c cause
  rw [h]
@[simp] theorem Chip.islands_vcmRamp (c : Chip) (cause : Nat) : (c.vcmRamp cause).islands = c.islands := by
  obtain ⟨r, v, h⟩ := Chip.vcmRamp_does c cause
  rw [h]
@[simp] theorem Chip.layers_vcmRamp (c : Chip) (cause : Nat) : (c.vcmRamp cause).layers = c.layers := by
  obtain ⟨r, v, h⟩ := Chip.vcmRamp_does c cause
  rw [h]
@[simp] theorem Chip.layersOld_vcmRamp (c : Chip) (cause : Nat) : (c.vcmRamp cause).layersOld = c.layersOld := by
  obtain ⟨r, v, h⟩ := Chip.vcmRamp_does c cause
  rw [h]
@[simp] theorem Chip.supply_vcmRamp (c : Chip) (cause : Nat) : (c.vcmRamp cause).supply = c.supply := by
  obtain ⟨r, v, h⟩ := Chip.vcmRamp_does c cause
  rw [h]
@[simp] theorem Chip.host_vcmRamp (c : Chip) (cause : Nat) : (c.vcmRamp cause).host = c.host := by
  obtain ⟨r, v, h⟩ := Chip.vcmRamp_does c cause
  rw [h]
@[simp] theorem Chip.egress_vcmRamp (c : Chip) (cause : Nat) : (c.vcmRamp cause).egress = c.egress := by
  obtain ⟨r, v, h⟩ := Chip.vcmRamp_does c cause
  rw [h]

/-! ### The CSI-2 outputs stop -/

@[simp] theorem Chip.dev_csiDown (c : Chip) : c.csiDown.dev = c.dev := by
  obtain ⟨r, l, h⟩ := Chip.csiDown_does c
  rw [h]
@[simp] theorem Chip.mosaic_csiDown (c : Chip) : c.csiDown.mosaic = c.mosaic := by
  obtain ⟨r, l, h⟩ := Chip.csiDown_does c
  rw [h]
@[simp] theorem Chip.aon_csiDown (c : Chip) : c.csiDown.aon = c.aon := by
  obtain ⟨r, l, h⟩ := Chip.csiDown_does c
  rw [h]
@[simp] theorem Chip.startup_csiDown (c : Chip) : c.csiDown.startup = c.startup := by
  obtain ⟨r, l, h⟩ := Chip.csiDown_does c
  rw [h]
@[simp] theorem Chip.force_csiDown (c : Chip) : c.csiDown.force = c.force := by
  obtain ⟨r, l, h⟩ := Chip.csiDown_does c
  rw [h]
@[simp] theorem Chip.tally_csiDown (c : Chip) : c.csiDown.tally = c.tally := by
  obtain ⟨r, l, h⟩ := Chip.csiDown_does c
  rw [h]
@[simp] theorem Chip.faults_csiDown (c : Chip) : c.csiDown.faults = c.faults := by
  obtain ⟨r, l, h⟩ := Chip.csiDown_does c
  rw [h]
@[simp] theorem Chip.once_csiDown (c : Chip) : c.csiDown.once = c.once := by
  obtain ⟨r, l, h⟩ := Chip.csiDown_does c
  rw [h]
@[simp] theorem Chip.stamp_csiDown (c : Chip) : c.csiDown.stamp = c.stamp := by
  obtain ⟨r, l, h⟩ := Chip.csiDown_does c
  rw [h]
@[simp] theorem Chip.now_csiDown (c : Chip) : c.csiDown.now = c.now := by
  obtain ⟨r, l, h⟩ := Chip.csiDown_does c
  rw [h]
@[simp] theorem Chip.timebase_csiDown (c : Chip) : c.csiDown.timebase = c.timebase := by
  obtain ⟨r, l, h⟩ := Chip.csiDown_does c
  rw [h]
@[simp] theorem Chip.draws_csiDown (c : Chip) : c.csiDown.draws = c.draws := by
  obtain ⟨r, l, h⟩ := Chip.csiDown_does c
  rw [h]
@[simp] theorem Chip.sched_csiDown (c : Chip) : c.csiDown.sched = c.sched := by
  obtain ⟨r, l, h⟩ := Chip.csiDown_does c
  rw [h]
@[simp] theorem Chip.mem_csiDown (c : Chip) : c.csiDown.mem = c.mem := by
  obtain ⟨r, l, h⟩ := Chip.csiDown_does c
  rw [h]
@[simp] theorem Chip.eccWindow_csiDown (c : Chip) : c.csiDown.eccWindow = c.eccWindow := by
  obtain ⟨r, l, h⟩ := Chip.csiDown_does c
  rw [h]
@[simp] theorem Chip.scrub_csiDown (c : Chip) : c.csiDown.scrub = c.scrub := by
  obtain ⟨r, l, h⟩ := Chip.csiDown_does c
  rw [h]
@[simp] theorem Chip.fabric_csiDown (c : Chip) : c.csiDown.fabric = c.fabric := by
  obtain ⟨r, l, h⟩ := Chip.csiDown_does c
  rw [h]
@[simp] theorem Chip.otp_csiDown (c : Chip) : c.csiDown.otp = c.otp := by
  obtain ⟨r, l, h⟩ := Chip.csiDown_does c
  rw [h]
@[simp] theorem Chip.loader_csiDown (c : Chip) : c.csiDown.loader = c.loader := by
  obtain ⟨r, l, h⟩ := Chip.csiDown_does c
  rw [h]
@[simp] theorem Chip.pixel_csiDown (c : Chip) : c.csiDown.pixel = c.pixel := by
  obtain ⟨r, l, h⟩ := Chip.csiDown_does c
  rw [h]
@[simp] theorem Chip.terrace_csiDown (c : Chip) : c.csiDown.terrace = c.terrace := by
  obtain ⟨r, l, h⟩ := Chip.csiDown_does c
  rw [h]
@[simp] theorem Chip.survey_csiDown (c : Chip) : c.csiDown.survey = c.survey := by
  obtain ⟨r, l, h⟩ := Chip.csiDown_does c
  rw [h]
@[simp] theorem Chip.front_csiDown (c : Chip) : c.csiDown.front = c.front := by
  obtain ⟨r, l, h⟩ := Chip.csiDown_does c
  rw [h]
@[simp] theorem Chip.islands_csiDown (c : Chip) : c.csiDown.islands = c.islands := by
  obtain ⟨r, l, h⟩ := Chip.csiDown_does c
  rw [h]
@[simp] theorem Chip.layers_csiDown (c : Chip) : c.csiDown.layers = c.layers := by
  obtain ⟨r, l, h⟩ := Chip.csiDown_does c
  rw [h]
@[simp] theorem Chip.layersOld_csiDown (c : Chip) : c.csiDown.layersOld = c.layersOld := by
  obtain ⟨r, l, h⟩ := Chip.csiDown_does c
  rw [h]
@[simp] theorem Chip.supply_csiDown (c : Chip) : c.csiDown.supply = c.supply := by
  obtain ⟨r, l, h⟩ := Chip.csiDown_does c
  rw [h]
@[simp] theorem Chip.loop_csiDown (c : Chip) : c.csiDown.loop = c.loop := by
  obtain ⟨r, l, h⟩ := Chip.csiDown_does c
  rw [h]
@[simp] theorem Chip.egress_csiDown (c : Chip) : c.csiDown.egress = c.egress := by
  obtain ⟨r, l, h⟩ := Chip.csiDown_does c
  rw [h]

/-! ### A load is dropped -/

@[simp] theorem Chip.dev_dropLoad (c : Chip) : c.dropLoad.dev = c.dev := by
  obtain ⟨r, b, h⟩ := Chip.dropLoad_does c
  rw [h]
@[simp] theorem Chip.mosaic_dropLoad (c : Chip) : c.dropLoad.mosaic = c.mosaic := by
  obtain ⟨r, b, h⟩ := Chip.dropLoad_does c
  rw [h]
@[simp] theorem Chip.aon_dropLoad (c : Chip) : c.dropLoad.aon = c.aon := by
  obtain ⟨r, b, h⟩ := Chip.dropLoad_does c
  rw [h]
@[simp] theorem Chip.startup_dropLoad (c : Chip) : c.dropLoad.startup = c.startup := by
  obtain ⟨r, b, h⟩ := Chip.dropLoad_does c
  rw [h]
@[simp] theorem Chip.force_dropLoad (c : Chip) : c.dropLoad.force = c.force := by
  obtain ⟨r, b, h⟩ := Chip.dropLoad_does c
  rw [h]
@[simp] theorem Chip.tally_dropLoad (c : Chip) : c.dropLoad.tally = c.tally := by
  obtain ⟨r, b, h⟩ := Chip.dropLoad_does c
  rw [h]
@[simp] theorem Chip.faults_dropLoad (c : Chip) : c.dropLoad.faults = c.faults := by
  obtain ⟨r, b, h⟩ := Chip.dropLoad_does c
  rw [h]
@[simp] theorem Chip.once_dropLoad (c : Chip) : c.dropLoad.once = c.once := by
  obtain ⟨r, b, h⟩ := Chip.dropLoad_does c
  rw [h]
@[simp] theorem Chip.stamp_dropLoad (c : Chip) : c.dropLoad.stamp = c.stamp := by
  obtain ⟨r, b, h⟩ := Chip.dropLoad_does c
  rw [h]
@[simp] theorem Chip.now_dropLoad (c : Chip) : c.dropLoad.now = c.now := by
  obtain ⟨r, b, h⟩ := Chip.dropLoad_does c
  rw [h]
@[simp] theorem Chip.timebase_dropLoad (c : Chip) : c.dropLoad.timebase = c.timebase := by
  obtain ⟨r, b, h⟩ := Chip.dropLoad_does c
  rw [h]
@[simp] theorem Chip.draws_dropLoad (c : Chip) : c.dropLoad.draws = c.draws := by
  obtain ⟨r, b, h⟩ := Chip.dropLoad_does c
  rw [h]
@[simp] theorem Chip.sched_dropLoad (c : Chip) : c.dropLoad.sched = c.sched := by
  obtain ⟨r, b, h⟩ := Chip.dropLoad_does c
  rw [h]
@[simp] theorem Chip.mem_dropLoad (c : Chip) : c.dropLoad.mem = c.mem := by
  obtain ⟨r, b, h⟩ := Chip.dropLoad_does c
  rw [h]
@[simp] theorem Chip.eccWindow_dropLoad (c : Chip) : c.dropLoad.eccWindow = c.eccWindow := by
  obtain ⟨r, b, h⟩ := Chip.dropLoad_does c
  rw [h]
@[simp] theorem Chip.scrub_dropLoad (c : Chip) : c.dropLoad.scrub = c.scrub := by
  obtain ⟨r, b, h⟩ := Chip.dropLoad_does c
  rw [h]
@[simp] theorem Chip.fabric_dropLoad (c : Chip) : c.dropLoad.fabric = c.fabric := by
  obtain ⟨r, b, h⟩ := Chip.dropLoad_does c
  rw [h]
@[simp] theorem Chip.otp_dropLoad (c : Chip) : c.dropLoad.otp = c.otp := by
  obtain ⟨r, b, h⟩ := Chip.dropLoad_does c
  rw [h]
@[simp] theorem Chip.loader_dropLoad (c : Chip) : c.dropLoad.loader =
    { c.loader with load := none, hot := none,
                    pushEnded := c.loader.pushEnded || c.loader.load.any fun l => l.source == .push } := by
  unfold Chip.dropLoad
  split <;> rename_i h <;> dsimp only [Chip.put, Chip.setBit, Chip.set] <;> split <;> rename_i k <;>
    simp [k] <;> simp [← h, ← k]
@[simp] theorem Chip.pixel_dropLoad (c : Chip) : c.dropLoad.pixel = c.pixel := by
  obtain ⟨r, b, h⟩ := Chip.dropLoad_does c
  rw [h]
@[simp] theorem Chip.terrace_dropLoad (c : Chip) : c.dropLoad.terrace = c.terrace := by
  obtain ⟨r, b, h⟩ := Chip.dropLoad_does c
  rw [h]
@[simp] theorem Chip.survey_dropLoad (c : Chip) : c.dropLoad.survey = c.survey := by
  obtain ⟨r, b, h⟩ := Chip.dropLoad_does c
  rw [h]
@[simp] theorem Chip.front_dropLoad (c : Chip) : c.dropLoad.front = c.front := by
  obtain ⟨r, b, h⟩ := Chip.dropLoad_does c
  rw [h]
@[simp] theorem Chip.islands_dropLoad (c : Chip) : c.dropLoad.islands = c.islands := by
  obtain ⟨r, b, h⟩ := Chip.dropLoad_does c
  rw [h]
@[simp] theorem Chip.layers_dropLoad (c : Chip) : c.dropLoad.layers = c.layers := by
  obtain ⟨r, b, h⟩ := Chip.dropLoad_does c
  rw [h]
@[simp] theorem Chip.layersOld_dropLoad (c : Chip) : c.dropLoad.layersOld = c.layersOld := by
  obtain ⟨r, b, h⟩ := Chip.dropLoad_does c
  rw [h]
@[simp] theorem Chip.supply_dropLoad (c : Chip) : c.dropLoad.supply = c.supply := by
  obtain ⟨r, b, h⟩ := Chip.dropLoad_does c
  rw [h]
@[simp] theorem Chip.loop_dropLoad (c : Chip) : c.dropLoad.loop = c.loop := by
  obtain ⟨r, b, h⟩ := Chip.dropLoad_does c
  rw [h]
@[simp] theorem Chip.host_dropLoad (c : Chip) : c.dropLoad.host = c.host := by
  obtain ⟨r, b, h⟩ := Chip.dropLoad_does c
  rw [h]
@[simp] theorem Chip.egress_dropLoad (c : Chip) : c.dropLoad.egress = c.egress := by
  obtain ⟨r, b, h⟩ := Chip.dropLoad_does c
  rw [h]

/-! ### A triggered scrub pass ends -/

@[simp] theorem Chip.dev_scrubEnd (c : Chip) (n : Nat) : (c.scrubEnd n).dev = c.dev := by
  obtain ⟨r, h⟩ := Chip.scrubEnd_does c n
  rw [h]
@[simp] theorem Chip.mosaic_scrubEnd (c : Chip) (n : Nat) : (c.scrubEnd n).mosaic = c.mosaic := by
  obtain ⟨r, h⟩ := Chip.scrubEnd_does c n
  rw [h]
@[simp] theorem Chip.aon_scrubEnd (c : Chip) (n : Nat) : (c.scrubEnd n).aon = c.aon := by
  obtain ⟨r, h⟩ := Chip.scrubEnd_does c n
  rw [h]
@[simp] theorem Chip.startup_scrubEnd (c : Chip) (n : Nat) : (c.scrubEnd n).startup = c.startup := by
  obtain ⟨r, h⟩ := Chip.scrubEnd_does c n
  rw [h]
@[simp] theorem Chip.force_scrubEnd (c : Chip) (n : Nat) : (c.scrubEnd n).force = c.force := by
  obtain ⟨r, h⟩ := Chip.scrubEnd_does c n
  rw [h]
@[simp] theorem Chip.tally_scrubEnd (c : Chip) (n : Nat) : (c.scrubEnd n).tally = c.tally := by
  obtain ⟨r, h⟩ := Chip.scrubEnd_does c n
  rw [h]
@[simp] theorem Chip.faults_scrubEnd (c : Chip) (n : Nat) : (c.scrubEnd n).faults = c.faults := by
  obtain ⟨r, h⟩ := Chip.scrubEnd_does c n
  rw [h]
@[simp] theorem Chip.once_scrubEnd (c : Chip) (n : Nat) : (c.scrubEnd n).once = c.once := by
  obtain ⟨r, h⟩ := Chip.scrubEnd_does c n
  rw [h]
@[simp] theorem Chip.stamp_scrubEnd (c : Chip) (n : Nat) : (c.scrubEnd n).stamp = c.stamp := by
  obtain ⟨r, h⟩ := Chip.scrubEnd_does c n
  rw [h]
@[simp] theorem Chip.now_scrubEnd (c : Chip) (n : Nat) : (c.scrubEnd n).now = c.now := by
  obtain ⟨r, h⟩ := Chip.scrubEnd_does c n
  rw [h]
@[simp] theorem Chip.timebase_scrubEnd (c : Chip) (n : Nat) : (c.scrubEnd n).timebase = c.timebase := by
  obtain ⟨r, h⟩ := Chip.scrubEnd_does c n
  rw [h]
@[simp] theorem Chip.draws_scrubEnd (c : Chip) (n : Nat) : (c.scrubEnd n).draws = c.draws := by
  obtain ⟨r, h⟩ := Chip.scrubEnd_does c n
  rw [h]
@[simp] theorem Chip.sched_scrubEnd (c : Chip) (n : Nat) : (c.scrubEnd n).sched = c.sched := by
  obtain ⟨r, h⟩ := Chip.scrubEnd_does c n
  rw [h]
@[simp] theorem Chip.mem_scrubEnd (c : Chip) (n : Nat) : (c.scrubEnd n).mem = c.mem := by
  obtain ⟨r, h⟩ := Chip.scrubEnd_does c n
  rw [h]
@[simp] theorem Chip.eccWindow_scrubEnd (c : Chip) (n : Nat) : (c.scrubEnd n).eccWindow = c.eccWindow := by
  obtain ⟨r, h⟩ := Chip.scrubEnd_does c n
  rw [h]
@[simp] theorem Chip.scrub_scrubEnd (c : Chip) (n : Nat) : (c.scrubEnd n).scrub = none := by
  obtain ⟨r, h⟩ := Chip.scrubEnd_does c n
  rw [h]
@[simp] theorem Chip.fabric_scrubEnd (c : Chip) (n : Nat) : (c.scrubEnd n).fabric = c.fabric := by
  obtain ⟨r, h⟩ := Chip.scrubEnd_does c n
  rw [h]
@[simp] theorem Chip.otp_scrubEnd (c : Chip) (n : Nat) : (c.scrubEnd n).otp = c.otp := by
  obtain ⟨r, h⟩ := Chip.scrubEnd_does c n
  rw [h]
@[simp] theorem Chip.loader_scrubEnd (c : Chip) (n : Nat) : (c.scrubEnd n).loader = c.loader := by
  obtain ⟨r, h⟩ := Chip.scrubEnd_does c n
  rw [h]
@[simp] theorem Chip.pixel_scrubEnd (c : Chip) (n : Nat) : (c.scrubEnd n).pixel = c.pixel := by
  obtain ⟨r, h⟩ := Chip.scrubEnd_does c n
  rw [h]
@[simp] theorem Chip.terrace_scrubEnd (c : Chip) (n : Nat) : (c.scrubEnd n).terrace = c.terrace := by
  obtain ⟨r, h⟩ := Chip.scrubEnd_does c n
  rw [h]
@[simp] theorem Chip.survey_scrubEnd (c : Chip) (n : Nat) : (c.scrubEnd n).survey = c.survey := by
  obtain ⟨r, h⟩ := Chip.scrubEnd_does c n
  rw [h]
@[simp] theorem Chip.front_scrubEnd (c : Chip) (n : Nat) : (c.scrubEnd n).front = c.front := by
  obtain ⟨r, h⟩ := Chip.scrubEnd_does c n
  rw [h]
@[simp] theorem Chip.islands_scrubEnd (c : Chip) (n : Nat) : (c.scrubEnd n).islands = c.islands := by
  obtain ⟨r, h⟩ := Chip.scrubEnd_does c n
  rw [h]
@[simp] theorem Chip.layers_scrubEnd (c : Chip) (n : Nat) : (c.scrubEnd n).layers = c.layers := by
  obtain ⟨r, h⟩ := Chip.scrubEnd_does c n
  rw [h]
@[simp] theorem Chip.layersOld_scrubEnd (c : Chip) (n : Nat) : (c.scrubEnd n).layersOld = c.layersOld := by
  obtain ⟨r, h⟩ := Chip.scrubEnd_does c n
  rw [h]
@[simp] theorem Chip.supply_scrubEnd (c : Chip) (n : Nat) : (c.scrubEnd n).supply = c.supply := by
  obtain ⟨r, h⟩ := Chip.scrubEnd_does c n
  rw [h]
@[simp] theorem Chip.loop_scrubEnd (c : Chip) (n : Nat) : (c.scrubEnd n).loop = c.loop := by
  obtain ⟨r, h⟩ := Chip.scrubEnd_does c n
  rw [h]
@[simp] theorem Chip.host_scrubEnd (c : Chip) (n : Nat) : (c.scrubEnd n).host = c.host := by
  obtain ⟨r, h⟩ := Chip.scrubEnd_does c n
  rw [h]
@[simp] theorem Chip.egress_scrubEnd (c : Chip) (n : Nat) : (c.scrubEnd n).egress = c.egress := by
  obtain ⟨r, h⟩ := Chip.scrubEnd_does c n
  rw [h]

/-! ### The host's line buffer closes -/

@[simp] theorem Chip.dev_hostLineDrop (c : Chip) : c.hostLineDrop.dev = c.dev := by
  obtain ⟨r, h⟩ := Chip.hostLineDrop_does c
  rw [h]
@[simp] theorem Chip.mosaic_hostLineDrop (c : Chip) : c.hostLineDrop.mosaic = c.mosaic := by
  obtain ⟨r, h⟩ := Chip.hostLineDrop_does c
  rw [h]
@[simp] theorem Chip.aon_hostLineDrop (c : Chip) : c.hostLineDrop.aon = c.aon := by
  obtain ⟨r, h⟩ := Chip.hostLineDrop_does c
  rw [h]
@[simp] theorem Chip.startup_hostLineDrop (c : Chip) : c.hostLineDrop.startup = c.startup := by
  obtain ⟨r, h⟩ := Chip.hostLineDrop_does c
  rw [h]
@[simp] theorem Chip.force_hostLineDrop (c : Chip) : c.hostLineDrop.force = c.force := by
  obtain ⟨r, h⟩ := Chip.hostLineDrop_does c
  rw [h]
@[simp] theorem Chip.tally_hostLineDrop (c : Chip) : c.hostLineDrop.tally = c.tally := by
  obtain ⟨r, h⟩ := Chip.hostLineDrop_does c
  rw [h]
@[simp] theorem Chip.faults_hostLineDrop (c : Chip) : c.hostLineDrop.faults = c.faults := by
  obtain ⟨r, h⟩ := Chip.hostLineDrop_does c
  rw [h]
@[simp] theorem Chip.once_hostLineDrop (c : Chip) : c.hostLineDrop.once = c.once := by
  obtain ⟨r, h⟩ := Chip.hostLineDrop_does c
  rw [h]
@[simp] theorem Chip.stamp_hostLineDrop (c : Chip) : c.hostLineDrop.stamp = c.stamp := by
  obtain ⟨r, h⟩ := Chip.hostLineDrop_does c
  rw [h]
@[simp] theorem Chip.now_hostLineDrop (c : Chip) : c.hostLineDrop.now = c.now := by
  obtain ⟨r, h⟩ := Chip.hostLineDrop_does c
  rw [h]
@[simp] theorem Chip.timebase_hostLineDrop (c : Chip) : c.hostLineDrop.timebase = c.timebase := by
  obtain ⟨r, h⟩ := Chip.hostLineDrop_does c
  rw [h]
@[simp] theorem Chip.draws_hostLineDrop (c : Chip) : c.hostLineDrop.draws = c.draws := by
  obtain ⟨r, h⟩ := Chip.hostLineDrop_does c
  rw [h]
@[simp] theorem Chip.sched_hostLineDrop (c : Chip) : c.hostLineDrop.sched = c.sched := by
  obtain ⟨r, h⟩ := Chip.hostLineDrop_does c
  rw [h]
@[simp] theorem Chip.mem_hostLineDrop (c : Chip) : c.hostLineDrop.mem = { c.mem with hostLine := none } := by
  obtain ⟨r, h⟩ := Chip.hostLineDrop_does c
  rw [h]
@[simp] theorem Chip.eccWindow_hostLineDrop (c : Chip) : c.hostLineDrop.eccWindow = c.eccWindow := by
  obtain ⟨r, h⟩ := Chip.hostLineDrop_does c
  rw [h]
@[simp] theorem Chip.scrub_hostLineDrop (c : Chip) : c.hostLineDrop.scrub = c.scrub := by
  obtain ⟨r, h⟩ := Chip.hostLineDrop_does c
  rw [h]
@[simp] theorem Chip.fabric_hostLineDrop (c : Chip) : c.hostLineDrop.fabric = c.fabric := by
  obtain ⟨r, h⟩ := Chip.hostLineDrop_does c
  rw [h]
@[simp] theorem Chip.otp_hostLineDrop (c : Chip) : c.hostLineDrop.otp = c.otp := by
  obtain ⟨r, h⟩ := Chip.hostLineDrop_does c
  rw [h]
@[simp] theorem Chip.loader_hostLineDrop (c : Chip) : c.hostLineDrop.loader = c.loader := by
  obtain ⟨r, h⟩ := Chip.hostLineDrop_does c
  rw [h]
@[simp] theorem Chip.pixel_hostLineDrop (c : Chip) : c.hostLineDrop.pixel = c.pixel := by
  obtain ⟨r, h⟩ := Chip.hostLineDrop_does c
  rw [h]
@[simp] theorem Chip.terrace_hostLineDrop (c : Chip) : c.hostLineDrop.terrace = c.terrace := by
  obtain ⟨r, h⟩ := Chip.hostLineDrop_does c
  rw [h]
@[simp] theorem Chip.survey_hostLineDrop (c : Chip) : c.hostLineDrop.survey = c.survey := by
  obtain ⟨r, h⟩ := Chip.hostLineDrop_does c
  rw [h]
@[simp] theorem Chip.front_hostLineDrop (c : Chip) : c.hostLineDrop.front = c.front := by
  obtain ⟨r, h⟩ := Chip.hostLineDrop_does c
  rw [h]
@[simp] theorem Chip.islands_hostLineDrop (c : Chip) : c.hostLineDrop.islands = c.islands := by
  obtain ⟨r, h⟩ := Chip.hostLineDrop_does c
  rw [h]
@[simp] theorem Chip.layers_hostLineDrop (c : Chip) : c.hostLineDrop.layers = c.layers := by
  obtain ⟨r, h⟩ := Chip.hostLineDrop_does c
  rw [h]
@[simp] theorem Chip.layersOld_hostLineDrop (c : Chip) : c.hostLineDrop.layersOld = c.layersOld := by
  obtain ⟨r, h⟩ := Chip.hostLineDrop_does c
  rw [h]
@[simp] theorem Chip.supply_hostLineDrop (c : Chip) : c.hostLineDrop.supply = c.supply := by
  obtain ⟨r, h⟩ := Chip.hostLineDrop_does c
  rw [h]
@[simp] theorem Chip.loop_hostLineDrop (c : Chip) : c.hostLineDrop.loop = c.loop := by
  obtain ⟨r, h⟩ := Chip.hostLineDrop_does c
  rw [h]
@[simp] theorem Chip.host_hostLineDrop (c : Chip) : c.hostLineDrop.host = c.host := by
  obtain ⟨r, h⟩ := Chip.hostLineDrop_does c
  rw [h]
@[simp] theorem Chip.egress_hostLineDrop (c : Chip) : c.hostLineDrop.egress = c.egress := by
  obtain ⟨r, h⟩ := Chip.hostLineDrop_does c
  rw [h]

end Sys2Proof.Machine
end

