-- ==== Sys2Proof/Tests/Slice0.lean ====
section
/-!
SUPPORT. Tests/Slice0.lean: ill-formed commands that the check refuses, a witness for every statement with hypotheses (a state and
operands that meet them, clause by clause), and a few worked cases of the spec.
-/
namespace Sys2Proof.Tests

open Machine

/-! ### States for tests -/

/-- The chip after reset, in another device state. -/
def chip (d : DevState) : Chip := { State.reset.chip with dev := d }

/-- A state with this chip. -/
def st (c : Chip) : State := { State.reset with chip := c }

/-- Zero bytes. -/
def zeros (n : Nat) : List Byte := List.replicate n 0

/-- A section with one unit of one pass, of this body (R165, R166). -/
def oneUnit (body : List Byte) : List Byte :=
  let r := leBytes 2 1 ++ zeros 6 ++ leBytes 4 48 ++ leBytes 4 body.length ++ zeros 16 ++ zeros 8 ++ leBytes 4 1 ++ zeros 4 ++ body
  leBytes 2 1 ++ zeros 14 ++ leBytes 4 24 ++ leBytes 4 r.length ++ r

/-- A Mover body whose one descriptor has this OP, from pool 2 to pool 3, a row of 8 bytes (R421); its constants follow. -/
def moverBody (op p0 p1 p2 : Nat) (consts : List Byte) : List Byte :=
  zeros 4 ++ leBytes 4 80 ++ leBytes 4 consts.length ++ zeros 4 ++
    leBytes 1 op ++ leBytes 1 2 ++ leBytes 1 3 ++ zeros 1 ++ leBytes 4 8 ++ leBytes 4 1 ++ leBytes 4 1 ++ leBytes 4 64 ++ zeros 12 ++
    leBytes 4 128 ++ zeros 12 ++ leBytes 4 p0 ++ leBytes 4 p1 ++ leBytes 4 p2 ++ zeros 4 ++ consts

/-- A schedule of one entry: slots 0 to 9 of a lane, unit 0, no gate and no predecessor (R107, R109). -/
def schedule (lane : Nat) : List Byte :=
  leBytes 2 1 ++ leBytes 1 2 ++ zeros 29 ++ leBytes 2 (4096 * lane) ++ leBytes 2 (10 + 16384) ++ zeros 4 ++ leBytes 2 0xFFFF ++
    leBytes 2 0xFFFF ++ zeros 4

/-- One expert layer of two experts and one seat on Vale 0 (R350). -/
def expertLayer : List Byte :=
  zeros 2 ++ leBytes 1 1 ++ zeros 5 ++ leBytes 4 16 ++ zeros 4 ++
    (leBytes 2 0 ++ leBytes 1 2 ++ leBytes 1 2 ++ zeros 6 ++ leBytes 1 1 ++ zeros 45 ++ leBytes 4 64 ++ zeros 36 ++ zeros 24)

/-- An image with one unit on a lane, the layer and a placement policy for it. -/
def image (lane : Nat) (body : List Byte) : Image :=
  { header := zeros 256,
    sections := [⟨Ty.SCHEDULE, 0xFF, schedule lane⟩, ⟨(unitSection lane).1, (unitSection lane).2, oneUnit body⟩,
      ⟨Ty.EXPERTS, 0, expertLayer⟩, ⟨Ty.STATE_MACHINE, 0, leBytes 1 0 ++ leBytes 1 1 ++ leBytes 1 1 ++ leBytes 1 1 ++ leBytes 2 1 ++ zeros 10⟩] }

/-- The unit in progress on a lane; its passes so far have these counts. -/
def run (counts : List Nat) : UnitRun :=
  { entry := 0, unit := 0, ofs := 0, old := false, pass := 0, exact := false, began := 0, waiting := false, replayed := 0,
    replay := Replay.none,
    tainted := false, poisoned := false, counts := counts, masks := [], told := 0 }

/-- A chip in RUN with an image. -/
def running (im : Image) : Chip :=
  let c := chip .run
  { c with loader := { c.loader with image := some im }, layers := im.layerRecs.map LayerRec.initial }

/-- A chip in RUN whose lane runs the one unit of its image. -/
def busy (lane : Nat) (body : List Byte) (counts : List Nat) : Chip :=
  let c := running (image lane body)
  { c with sched := { c.sched with lanes := [(laneOfCode lane, run counts)] } }

/-- Mover 0 has begun an operation. -/
def moving (op p0 p1 p2 : Nat) (consts : List Byte) : Chip := busy 7 (moverBody op p0 p1 p2 consts) [1]

/-! ### Ill-formed commands: one for each check -/

/-- A flip of a cell of no memory. -/
def badUpset : Upset := { key := 10 * 2 ^ 32, inChk := false, mask := 1 }

/-- A self-test outcome that passes. -/
def pass : SelftestOutcome :=
  { saddleFail := false, valeFail := 0, slices := [], dies := [], survey := 3, safe := List.replicate 6 [545, 605, 665, 730, 795] }

/-- Commands whose operands lie outside their ranges. -/
def illFormed : List Instr := [
  .railFall 5, .exitResetHold 8, .fillComplete { checkError := false, lockedS := true, locked := 64 },
  .selftestComplete { pass with valeFail := 64 }, .selftestComplete { pass with slices := [2560] },
  .selftestComplete { pass with dies := [10] }, .selftestComplete { pass with survey := 4 },
  .selftestComplete { pass with safe := [] }, .selftestComplete { pass with safe := List.replicate 6 [] },
  .selftestComplete { pass with safe := List.replicate 6 [545, 605, 665, 730, 821] }, .pllUnlock (.v 6),
  .softReset 65536, .go 65536, .stop 65536, .reload 65536, .slotStart 4096, .unitStart 16384, .windowOverrun 16384, .passStart 9,
  .unitEnd 9 0, .pushRetry 9, .exposureEdge .longOpen (8192, 0), .exposureEdge .longOpen (0, 1000),
  .trigEdge (20, 1000), .surveyResult [(0, 0)], .waveReplay 6 (0, 0), .replayStorm 6, .replayStuck 6,
  .islandAtSafeMv 6, .copy 2, .moverFill 2, .gather 2, .route 2, .combine 2, .place 2, .moverReturn 2, .placementDecision 16,
  .placementSwitch 16, .rdReq 20 0 0 0 0 1 [], .rdReq 0 4 0 0 0 1 [], .rdReq 0 0 1024 0 0 1 [], .rdReq 0 0 0 10 0 1 [],
  .rdReq 0 0 0 0 (2 ^ 32) 1 [], .rdReq 0 0 0 0 0 0 [], .rdReq 0 0 0 0 63 2 [], .rdReq 0 0 0 8 0 32 [], .rdReq 0 0 0 0 0 1 [badUpset],
  .wrReq 0 0 0 0 0 [], .rdData ⟨0, 20, 0⟩, .wrAck ⟨20, 0, 0⟩, .qReply ⟨0, 0, 4⟩, .resetAbort ⟨0, 20, 0⟩, .qPush 0 0 0 65536 [],
  .qPush 0 0 0 0 (List.replicate 65 MByte.aborted), .qPop 0 0 0 65536, .dieThreshold [10], .channelLoss [10], .eccDeclare 65536 0,
  .eccDeclare 0 16, .scrubPlainVisit [badUpset], .scrubBasinVisit [badUpset], .scrubTVisit [badUpset], .scrubGo 2, .resume 65536,
  .flush 65536, .qhPush 65536, .qhPop 65536, .qSelWrite 65536, .vcmTargetWrite 8388608, .vcmTargetWrite (-8388609), .lensCalProg 65536,
  .privClear 65536, .otpAbort 65536, .privCfgWrite 256, .read (2 ^ 32) 0, .write (2 ^ 32) [], .xspiBadCommand 256 0,
  .xspiBadCommand 0 256, .enec 256, .disec 256, .entdaa 128, .setdasa (128, 0), .setdasa (0, 128), .i3cPrivateWrite (128, []), .i3cPrivateRead (128, 0), .i2cTransfer (128, []) 0, .setnewda 128, .setmwl 65536, .setmrl 65536,
  .unsupportedCcc 256, .lcCtrl 65536 0, .lcCtrl 0 8, .program 0 16 0, .program 0 0 4, .program 65536 0 0, .lockWrite 0 16,
  .lockRead 0 16, .rollbackAdvance 0 16, .ceilingLower 0 16, .marginScan 0 16, .reburn 65536 0, .fence 65536 0, .fence 0 8,
  .moverReset 65536 0, .moverReset 0 2, .fltActiveClear (2 ^ 32) 0, .fltActiveClear 0 (2 ^ 32), .clrPeak 7, .terSelWrite 512 0,
  .terSelWrite 0 8, .reqMhzWrite 6 0, .reqMhzWrite 0 1024, .supplySample [], .supplyConditionEnd 8, .hostBasinWrite (2 ^ 32) [],
  .hostPlainWrite (2 ^ 32) [], .hostWindowRead (2 ^ 32) 0, .registerWrite (2 ^ 32) 0, .registerWrite 2 0]

theorem test_illFormed_refused : (illFormed.all fun i => !i.wf) = true := by decide +kernel

/-- The command answers the state after reset unchanged. -/
def ignored (i : Instr) : Bool :=
  match exec i State.reset with
  | .next t => t == State.reset
  | _ => false

theorem test_illFormed_ignored : illFormed.all ignored = true := by decide +kernel

/-! ### Witnesses -/

/-- The command answers a next state whose chip meets `post`. -/
def done (i : Instr) (c : Chip) (post : Chip → Bool) : Bool :=
  match exec i (st c) with
  | .next t => post t.chip
  | _ => false

/-- The command answers the state that it met. -/
def same (i : Instr) (c : Chip) : Bool := done i c fun d => d == c

/-- A chip with these fields written. -/
def put (c : Chip) (vs : List (Fld × Nat)) : Chip := vs.foldl (fun c v => c.set v.1 v.2) c

/-- A chip whose lifecycle state opens the windows. -/
def opened (d : DevState) : Chip := put (chip d) [(F.LIFECYCLE.STATE, 4)]

/-- A chip in SENSE with a valid XCLK count. -/
def sensing : Chip := { chip .sense with startup := { Startup.fresh with xclkValid := true } }

theorem witness_EmptyQueueLetsTimePass : State.reset.pending = [] := by decide +kernel

theorem witness_CommandsStopOnlyOnIllFormedOperands : Instr.wf (.clrPeak 6) = true ∧ Instr.wf (.clrPeak 7) = false := by decide +kernel

theorem witness_StepsKeepFusesBurnedAndInForm :
    let s : State := { State.reset with fuses := { burned := [(5, true)], weak := [] } }
    step s = .next { s with chip := s.chip.idle } ∧ fuseAt s.fuses.burned 5 = true ∧ s.fuses.wf = true := by
  exact ⟨rfl, by decide +kernel, by decide +kernel⟩

/-- A chip that has recorded one alert. -/
def recorded : Chip := (chip .run).record false 0x1FFF 3 7

theorem witness_RecordingFoldsOrMakesAnEntry :
    (recorded.faults.any fun e => e.code == 0x1FFF && e.unit == 3 && e.severity == severityOf false 0x1FFF && e.stamp == recorded.stamp) = true ∧
    (recorded.faults.any fun e => !(e.code == 0 && e.unit == 3 && e.severity == severityOf false 0 && e.stamp == recorded.stamp)) = true ∧
    severityOf true 0x1FFF ≠ 0 := by decide +kernel

theorem witness_ResetEventsEnterResetHold :
    let c := { chip .run with aon := { Aon.fresh with powerGood := true } }
    c.dev ≠ .off ∧ c.dev ≠ .resetHold ∧ c.dev.portsAnswer = true ∧ c.aon.powerGood = true ∧
      done (.nresetLow 500) c (·.dev == .resetHold) ∧ same (.nresetLow 99) c ∧ done (.nresetLow 100) c (fun _ => true) ∧
      done (.softReset 0x6050) c (·.dev == .resetHold) ∧ done (.railFall 4) c (·.aon.causes.testBit 8) := by decide +kernel

theorem witness_PowerTakesTheDeviceOffAndOn :
    (chip .sense).dev ≠ .off ∧ (chip .off).dev = .off ∧ (chip .sense).aon.otpLatch = false ∧
      done .vddaLoss (chip .sense) (·.dev == .off) ∧ done .aonStart (chip .off) (·.aon.causes == 1) ∧
      done .powerGood (chip .sense) (·.aon.powerGood) := by decide +kernel

theorem witness_ExitFromResetHoldRestoresResetValues :
    let c := { chip .resetHold with aon := { Aon.fresh with powerGood := true } }
    c.dev = .resetHold ∧ c.aon.powerGood = true ∧ c.aon.otpLatch = false ∧
      done (.exitResetHold 7) c (fun d => d.dev == .sense && d.word A.STRAPS == 7 && d.fld F.RESET_CAUSE.POWER_ON == 1) := by
  decide +kernel

theorem witness_XclkCountIdentifiesXclk :
    (chip .sense).dev = .sense ∧ (chip .sense).startup.xclkValid = false ∧
      [(17857, 34406400, 19200000), (19736, 31129600, 19200000), (27755, 31129600, 27000000)].all (fun p =>
        decide (p.1 * p.2.1 ≤ 32 * p.2.2 * 1000 + p.2.1 ∧ 32 * p.2.2 * 1000 ≤ p.1 * p.2.1 + p.2.1)) ∧
      [(16899, 3), (16900, 0), (20999, 0), (21000, 1), (24829, 1), (24830, 2), (28999, 2), (29000, 3)].all (fun p =>
        done (.xclkCount p.1) (chip .sense) fun c => c.fld F.CLK_STATUS.XCLK_ID == p.2) := by decide +kernel

theorem witness_OtpSensingChecksTheArray :
    sensing.dev = .sense ∧ sensing.startup.xclkValid = true ∧ sensing.startup.otpChecked = false ∧ otpIntact [] = true ∧
      otpIntact ((wlCopies 0).foldl burnFuse []) = false := by decide +kernel

theorem witness_StartUpPassesSenseAndFill :
    let c := { sensing with startup := { sensing.startup with otpChecked := true, secOnPllF := true } }
    c.dev = .sense ∧ c.startup.xclkValid = true ∧ c.startup.otpChecked = true ∧ c.startup.secOnPllF = true ∧
      done .secChangeover sensing (·.startup.secOnPllF) ∧ done .pllLockTimeout c (fun d => !d.startup.secOnPllF) ∧
      done .senseEnd c (·.dev == .fill) ∧
      done (.fillComplete { checkError := false, lockedS := true, locked := 63 }) (chip .fill) (·.dev == .selftest) ∧
      done (.fillComplete { checkError := true, lockedS := false, locked := 0 }) (chip .fill) (·.dev == .faultStop) := by
  decide +kernel

theorem witness_SelftestOutcomes :
    let c := chip .selftest
    c.dev = .selftest ∧ c.terrace.groups = [] ∧ c.terrace.slices = [] ∧ c.islands.length = 6 ∧ pass.wf = true ∧ pass.safe.length = 6 ∧
      (∀ p ∈ pass.safe, p.length = 5) ∧ SelftestOutcome.wf { pass with dies := [0, 9] } = true ∧
      2 ≤ ((List.range 10).filter fun d => [0, 9].contains d).length ∧
      done (.selftestComplete { pass with saddleFail := true }) c (·.dev == .faultStop) := by decide +kernel

theorem witness_LoadEndsInHold :
    let c := { chip .load with startup := { Startup.fresh with exitedAt := 3 }, now := 5003 }
    c.dev = .load ∧ c.loader.load = none ∧ c.startup.timing = true ∧
      c.now = c.startup.exitedAt + 1000 * 5 := by decide +kernel

/-- HOLD with an admitted image. -/
def ready : Chip := put { running (image 7 (moverBody 1 0 0 0 [])) with dev := .hold } [(F.DEV_STATE.IMAGE_OK, 1)]

theorem witness_GoEntersRunOrDegraded :
    ready.dev = .hold ∧ ready.loader.load = none ∧ ready.otp.job = none ∧ ready.fld F.DEV_STATE.IMAGE_OK = 1 ∧
      done (.go 0x6050) ready (·.dev == .run) ∧ done (.go 0x6050) (put ready [(F.DEV_STATE.DEGRADE, 2)]) (·.dev == .degraded) := by
  decide +kernel

theorem witness_StopReloadAndRefusedCommands :
    (chip .run).dev.open = true ∧ (chip .hold).busyForCmd = false ∧ (chip .hold).fld F.DEV_STATE.IMAGE_OK = 0 ∧
      (chip .run).dev.ticking = true ∧ (chip .hold).lifecycle ≠ 5 ∧ (chip .hold).keysInForce.keyUnset = false ∧
      done (.reload 0x6050) (put (chip .hold) [(F.DEV_STATE.IMAGE_OK, 1)]) (fun c => c.dev == .load && c.fld F.DEV_STATE.IMAGE_OK == 0) ∧
      done (.go 0) (chip .hold) (·.fld F.DEV_STATE.LAST_CMD == 2) ∧ done (.go 0x6050) (chip .run) (·.fld F.DEV_STATE.LAST_CMD == 3) ∧
      done (.go 0x6050) (chip .hold) (·.fld F.DEV_STATE.LAST_CMD == 5) ∧
      done (.stop 0x6050) (chip .run) (·.fld F.DEV_STATE.STOPPING == 1) := by decide +kernel

/-- RUN with the mandatory PLLs and PLL_C locked. -/
def locked : Chip := put (chip .run) [(F.CLK_STATUS.PLL_T_LOCK, 1), (F.CLK_STATUS.PLL_C_LOCK, 1), (vLock 5, 1), (F.CSI_STATUS.STATE, 2)]

theorem witness_PllUnlockResponses :
    locked.dev.live = true ∧ locked.fld F.CLK_STATUS.PLL_T_LOCK = 1 ∧ locked.fld F.CLK_STATUS.PLL_F_LOCK = 0 ∧
      locked.fld F.CSI_STATUS.STATE ≠ 0 ∧ locked.fld (vLock 5) = 1 ∧
      done (.pllUnlock .t) locked (·.dev == .faultStop) ∧ same (.pllUnlock .f) locked ∧
      done (.pllUnlock .c) locked (·.fld F.CSI_STATUS.STATE == 0) ∧
      done (.pllUnlock (.v 5)) locked (·.fld (F.VALE_STATUS.FENCED.vale 5) == 1) := by decide +kernel

theorem witness_BallsStandAsTheTableSays :
    let c := chip .run
    let high := put { c with sched := { c.sched with fsyncOut := true } } [(F.CSI_STATUS.LANES, 2)]
    let low := { high with supply := { high.supply with rails := high.supply.rails.set 2 { high.rail 2 with mv := 1709 } } }
    (high.ball .fsyncOut).drivesUp = true ∧ low.ball .fsyncOut = .unpowered ∧ high.ball (.csiData 0) = .lp11 ∧
      { high with host := { high.host with laneFloor := 2 } }.ball (.csiData 2) = .z ∧ (chip .hold).ball .strobe = .low ∧
      (chip .off).ball .strobe = .z ∧ (chip .sense).ball .nfault = .low ∧ c.ball .nfault = .z ∧ c.dev.ticking = true ∧
      (chip .hold).dev.ticking = false ∧ c.dev ≠ .off ∧ c.dev ≠ .resetHold ∧
      done (.nresetLow 500) high (fun d => d.ball (.csiData 0) == .z && d.ball .nfault == .low) := by decide +kernel

/-- RUN in the middle of a tick whose image has a unit on Mover 0. -/
def ticking : Chip := running (image 7 (moverBody 1 0 0 0 []))

theorem witness_TickEdgeBeginsAFrame :
    ticking.dev.ticking = true ∧ ticking.sched.drain = false ∧ ticking.fld F.DEV_STATE.STOPPING = 0 := by decide +kernel

/-- A STOP is under way. -/
def stopping : Chip := put ticking [(F.DEV_STATE.STOPPING, 1)]

theorem witness_StopEndsInHold :
    let e := ((stopping.setRail 3 { stopping.rail 3 with mv := 750 }).endPeriod).chooseTable
    let d := { stopping with sched := { stopping.sched with drain := true } }
    stopping.dev.ticking = true ∧ stopping.fld F.DEV_STATE.STOPPING = 1 ∧ stopping.sched.drain = false ∧
      stopping.sched.edgeHalf = false ∧ e.table.spill = 0 ∧ d.sched.drain = true ∧ d.dev.ticking = true ∧
      done .drainEnd d (·.dev == .hold) := by decide +kernel

/-- A schedule section like `schedule` whose one table holds a spill entry, slots 10 to 19. -/
def spilling : Chip :=
  let im := image 7 (moverBody 1 0 0 0 [])
  put (running { im with sections := im.sections.set 0 ⟨Ty.SCHEDULE, 0xFF, (schedule 7).set 4 1⟩ }) [(F.DEV_STATE.STOPPING, 1)]

theorem witness_StopEndsInHold_drain :
    let e := ((spilling.setRail 3 { spilling.rail 3 with mv := 750 }).endPeriod).chooseTable
    spilling.sched.starting = false ∧ e.table.spill ≠ 0 ∧ spilling.survey.temps = [] := by decide +kernel

theorem witness_SlotsBeginAndFsyncOutPulses :
    ticking.dev.ticking = true ∧ ticking.sched.starting = false ∧ ticking.fld F.TICK_STATUS.SLOT ≤ 4095 ∧
      done (.slotStart 4095) ticking (·.fld F.TICK_STATUS.SLOT == 4095) := by decide +kernel

theorem witness_UnitsStartAndBeginTheirFirstPass :
    let c := busy 7 (moverBody 1 0 0 0 []) []
    (ticking.planned 0).any (fun x => (ticking.planUnit x).isSome && ticking.mayStart x) ∧
      (c.planned 0).any (fun x => (c.planUnit x).isSome && !c.mayStart x) ∧
      (c.laneRun 7).any (fun u => u.pass == 0 && u.counts.isEmpty && !u.waiting &&
        ((c.wiring u.old).unit (laneCode 7) u.unit).any fun r => r.passes[0]?.any fun p => p.iterSrc == 0) ∧
      done (.unitStart 0) ticking (fun c => (c.laneRun 7).isSome) ∧ same (.unitStart 0) c ∧
      done (.passStart 7) c (fun c => c.fld F.MOV_STATUS.OP == 1) := by decide +kernel

theorem witness_UnitsStartAndBeginTheirFirstPass_lanes :
    [0, 1, 6].all (fun lane => let c := running (image lane [])
      (c.planned 0).any (fun x => (c.planUnit x).isSome && c.mayStart x && x.e.lane == lane)) := by decide +kernel

theorem witness_UnitsEndOrAreCut :
    let c := moving 2 7 9 0 []
    let u := { run [1] with pass := 1 }
    let e := { c with sched := { c.sched with lanes := [(7, u)] } }
    (((e.finishPass 7).laneRun 7).any fun u => (((e.finishPass 7).wiring u.old).unit (laneCode 7) u.unit).any fun r =>
        (e.finishPass 7).unitSettled 7 u r) ∧
      (c.planned 0).any (fun x => decide (x.e.lane ≤ 8) && decide (x.e.stop ≤ (put c [(F.TICK_STATUS.SLOT, 9)]).fld F.TICK_STATUS.SLOT + 1)) ∧
      c.dev.ticking = true ∧ c.sched.starting = false ∧ 0 ∉ c.sched.done ∧
      done (.unitEnd 7 12) e (fun d => (d.laneRun 7).isNone) := by decide +kernel

/-- A slaved chip with one window of the loop, in ACQUIRE. -/
def slaved : Chip :=
  let c := put ticking [(F.TICK_STATUS.SLAVED, 1), (F.TICK_STATUS.SLAVE_STATE, Slave.acquire)]
  { c with sched := { c.sched with windows := [(0, false)], idleTicks := 255, missed := 255 } }

theorem witness_SlavingFollowsFsyncEdges :
    slaved.dev.ticking = true ∧ slaved.fld F.TICK_STATUS.SLAVED = 1 ∧ slaved.slaveState ≠ Slave.free ∧
      (useWindow slaved.rate 16666667000 slaved.sched.windows).isSome = true ∧
      (slaved.slaveState = Slave.acquire ∧ slaved.sched.lastEdge = none) ∧
      (dropUnused slaved.sched.windows).isSome = true ∧ max 1 (slaved.live F.FSYNC_CFG.FSYNC_WAIT) ≤ slaved.sched.idleTicks ∧
      same (.fsyncEdge 19 16666667000) slaved ∧
      done (.fsyncEdge 20 16666667000) slaved (·.sched.lastEdge == some 16666667000) ∧
      done .fsyncAbsent slaved (·.slaveState == Slave.free) := by decide +kernel

theorem witness_SlavingFollowsFsyncEdges_misses :
    let l := put slaved [(F.TICK_STATUS.SLAVE_STATE, Slave.locked)]
    let h := put slaved [(F.TICK_STATUS.SLAVE_STATE, Slave.holdover)]
    l.slaveState = Slave.locked ∧ h.slaveState = Slave.holdover ∧ max 1 (h.live F.TICK_CTRL.HOLDOVER_MAX) ≤ h.sched.missed ∧
      l.sched.windows.any (fun w => inPeriod l.rate ((2000000 : Nat) - w.1)) = false ∧
      done (.fsyncEdge 20 2000000) l (·.fld F.SLAVE_EVENTS.OUT_OF_WINDOW == 1) ∧
      done .windowMissed l (·.slaveState == Slave.holdover) ∧ done .windowMissed h (·.sched.missed == 256) ∧
      done .slaveLost h (·.slaveState == Slave.free) := by decide +kernel

/-- A readout in progress, default mode. -/
def reading : Chip := put ticking [(F.PIX_STATUS.ACTIVE, 1)]

theorem witness_ExposuresStrobeAndTrig :
    let high := { reading with force := RegFile.setFld [] F.STROBE_MAX.US 5, pixel := { reading.pixel with strobe := true } }
    let trig := { reading with force := RegFile.setFld [] F.PIX_CTRL.TRIG_MODE 1 }
    reading.dev.ticking = true ∧ reading.fld F.PIX_STATUS.ACTIVE = 1 ∧ 6143 < reading.image.readout.rows ∧
      reading.image.readout.rows ≤ 6144 ∧ reading.image.readout.short = false ∧ high.pixel.strobe = true ∧
      high.live F.STROBE_MAX.US ≠ 0 ∧ trig.trigMode = 1 ∧
      done (.exposureEdge .longOpen (6143, 0)) reading (·.pixel.openLong == 1) ∧ same (.exposureEdge .longOpen (6144, 0)) reading ∧
      same (.exposureEdge .shortOpen (0, 999)) reading ∧ done .strobeCut high (!·.pixel.strobe) ∧ same (.trigEdge (19, 0)) trig ∧
      done (.trigEdge (20, 999)) trig (·.pixel.trigEdges == 1) := by decide +kernel

theorem witness_RowTimesAndRotationBoundaries :
    let c := put reading [(F.TER_ROT.POSITION, 255)]
    reading.dev.ticking = true ∧ reading.fld F.PIX_STATUS.ACTIVE = 1 ∧
      c.fld F.TER_ROT.POSITION = 255 ∧ c.terrace.boundaryTaken = false ∧
      (let r := reading.image.readout
       same (.rowTimeStart (-(r.lead : Int) - 1) []) reading ∧ same (.rowTimeStart (r.rowTimes + 1) []) reading ∧
       done (.rowTimeStart r.rowTimes []) reading (fun d => decide (d.sched.rowsRead = 6144))) := by
  decide +kernel

/-- Frame 0 is in the front pipeline; a sample of its first optical-black row has arrived. -/
def arriving : Chip :=
  { reading with
    front := [{
      frame := 0, old := false, regs := [], settled := true, obSum := [], avgSum := [], avgRow := [], held := [],
      shortMissing := [], pix := [], rowsIn := 0, rowsOut := 0, told := 0, black := [], gains := 0, dark := [] }],
    terrace := { Terrace.fresh with samples := [⟨0, 8, 0, 0, some 64⟩] } }

theorem witness_SamplesEnterTheFrontPipeline :
    let lost := { arriving with front := [] }
    arriving.terrace.samples ≠ [] ∧ lost.front = [] ∧ blackRow reading.image.readout 8 = true ∧
      (arriving.front.any fun f => f.frame == 0 && (let r := (arriving.wiring f.old).readout
        !r.phaseShort 0 && r.rowAt 8 == some (false, 8) && decide (1 < r.width))) ∧
      done .sampleArrival lost (fun d => d.terrace.samples.isEmpty) ∧
      done .sampleArrival arriving (fun d => d.fld F.FR_STATUS.ACTIVE == 1 && d.front.any fun g => g.obSum == [(0, (64, 1))]) := by
  decide +kernel

/-- RUN with channels 0 and 23 of the Survey selected, and a scan of channel 23 in progress. -/
def scanning : Chip :=
  let c := put (chip .run) [(F.SRV_MASK.MASK, 0x800001), (F.SRV_WIN_EN.CH, 0x800000), (F.SRV_STATUS.BUSY, 1),
    (F.SRV_WIN.HI.el 23, 0)]
  { c with survey := { c.survey with busy := true, scan := some { seq := 1, cycle := 7, align := 0, diff := 0, todo := [23], dropped := false } } }

theorem witness_SurveyScansAndFifo :
    let free := { scanning with survey := { Survey.fresh with fifo := [⟨0, 0⟩] } }
    let last := { scanning with survey := { scanning.survey with scan := some { seq := 1, cycle := 7, align := 0, diff := 0, todo := [], dropped := false } } }
    scanning.dev.open = true ∧ scanning.surveyUp = true ∧
      effectiveMask (scanning.fld F.SRV_MASK.MASK) (scanning.fld F.SRV_AIN_CFG.DIFF) = [0, 23] ∧ free.survey.busy = false ∧
      scanning.survey.busy = true ∧ last.survey.scan.any (fun x => x.todo.isEmpty) ∧ free.dev.portsAnswer = true ∧
      done .srvGo free (fun c => c.survey.busy) ∧ done .srvGo scanning (fun c => c.fld F.SRV_COUNTS.SKIPPED == 1) ∧
      done .srvGo { last with now := 142 } (fun c => c.fld F.SRV_SCAN_INFO.SRC == 1 && c.fld F.SRV_COUNTS.SKIPPED == 0) ∧
      done .surveyBusyEnd last (fun c => !c.survey.busy) ∧ done .srvFifoDataRead free (fun c => c.survey.fifo.isEmpty) ∧
      done .srvFlush free (fun c => c.survey.fifo.isEmpty) := by decide +kernel

/-- Four conversions of 1 mV. -/
abbrev volts : List (Int × Int) := List.replicate 4 (1000000, 0)

theorem witness_SurveyResultsAreDelivered :
    let full := { scanning with survey := { scanning.survey with fifo := List.replicate 64 ⟨0, 0⟩ } }
    (scanning.survey.scan.any fun x => x.todo == [23]) ∧ scanning.survey.fifo.length < 64 ∧ 64 ≤ full.survey.fifo.length ∧
      scanning.fld F.SRV_WIN_EN.CH / 2 ^ 23 % 2 = 1 ∧
      scanning.outsideWindow 23 (signedChannel 0 23) (scanning.surveyCode 0 23 volts).1 = true ∧
      done (.surveyResult volts) scanning (fun c => c.fld F.SRV_IRQ_STATUS.WINDOW == 1 && c.fld F.SRV_IRQ_STATUS.SCAN_DONE == 1 &&
        c.survey.fifo.length == 1) ∧
      done (.surveyResult volts) full (fun c => c.fld F.SRV_COUNTS.DROPPED == 1) := by decide +kernel

/-- The worked case of chapter 07: codes of pair 0, the coil current, a diode, VDDL and BG_CHECK. -/
theorem test_survey_codes :
    let of (ch : Nat) (v : Int × Int) := scanning.surveyCode 1 ch (List.replicate 4 v)
    of 0 (700000000, 950000000) = (patternOf 16 (-5120), false) ∧ of 6 (40000000000, 0) = (6554, false) ∧
      of 8 (58250000000, 0) = (20112, false) ∧ of 9 (150004000000, 0) = (0, true) ∧ of 19 (800000000, 0) = (32768, false) ∧
      of 22 (1200600000, 0) = (49177, false) := by decide +kernel

/-- A unit of Vale 5 in its first pass, at a wave, number 3, replayed 15 times. -/
def replaying : Chip :=
  let c := busy 6 [] []
  { c with sched := { c.sched with lanes := [(5, { run [1] with replay := ⟨3, 15, 0, 0⟩ })] } }

theorem witness_WaveReplayDrawsOnTheBudget :
    replaying.islands.length = 6 ∧ (replaying.begun 5).any (fun x => !x.1.waiting &&
        decide (replaying.unitBudget 5 x.1 ≤ x.1.replayed + 1000000000 + 4) && !x.1.told.testBit 3) ∧
      done (.waveReplay 5 (3, 7)) replaying (fun c => (c.laneRun 5).any fun v => v.replay.low == 16 && v.replayed == 11) := by decide +kernel

theorem witness_ReplayStormsRaiseAndStuckReplaysFence :
    let with_ (low high mv : Nat) : Chip :=
      { replaying with sched := { replaying.sched with lanes := [(5, { run [1] with replay := ⟨3, low, high, 0⟩ })] },
                       islands := replaying.islands.map fun x : Island => { x with startMv := mv, goal := mv, target := mv } }
    ((with_ 4 0 0).laneRun 5).isSome = true ∧ (with_ 0 16 1000).fenced 5 = false ∧ same (.replayStorm 5) (with_ 3 0 0) ∧
      same (.replayStuck 5) (with_ 0 15 1000) ∧ done (.replayStorm 5) (with_ 4 0 0) (fun c => (c.island 5).holdReplay == 1) := by decide +kernel

theorem witness_VoltageEvaluationSetsTheNextTarget :
    let c := put (chip .run) [(F.TICK_STATUS.SLOT, 4064), (F.VALE_STATUS.FENCED.vale 5, 1)]
    c.dev.ticking = true ∧ c.sched.starting = false ∧ c.fld F.TICK_STATUS.SLOT = 4064 ∧ c.islands.length = 6 ∧
      c.fenced 5 = true ∧ c.fenced 0 = false ∧ (c.island 0).next = none ∧
      done .voltageEvaluation c (fun d => (d.island 0).next.isSome && (d.island 5).next.isNone) := by decide +kernel

theorem witness_ExactUnitsBeginAndClocksAreRequested :
    let c := { replaying with
      sched := { replaying.sched with lanes := [(5, { run [] with waiting := true })] },
      islands := replaying.islands.map fun x : Island => { x with startMv := 1000, goal := 1000, target := 1000 } }
    (c.laneRun 5).any (fun u => u.waiting) ∧ c.atSafe 5 = true ∧ (chip .hold).dev.open = true ∧ (chip .hold).fenced 5 = false ∧
      (chip .hold).loader.image = none ∧ done (.islandAtSafeMv 5) c (fun d => (d.laneRun 5).any fun v => !v.waiting) ∧
      done (.reqMhzWrite 5 1023) (chip .hold) (fun d => d.fld (F.VALE_CLK.REQ_MHZ.vale 5) == 1000) ∧
      done (.reqMhzWrite 5 401) (chip .hold) (fun d => d.fld (F.VALE_CLK.REQ_MHZ.vale 5) == 425) ∧
      done (.reqMhzWrite 5 0) (chip .hold) (fun d => d.fld (F.VALE_CLK.REQ_MHZ.vale 5) == 200) := by decide +kernel

theorem witness_MoverPassesComplete :
    [1, 2, 3, 4, 5, 6].all (fun op => ((moving op 0 0 0 []).moverPass 0 op).isSome && ((moving op 0 0 0 []).moverPass 1 op).isNone) ∧
      done (.moverFill 0) (moving 2 7 9 0 []) (fun c => (c.laneRun 7).any fun v => v.pass == 1) ∧
      same (.moverFill 1) (moving 2 7 9 0 []) := by decide +kernel

/-- Mover 0 gathers a row by the index at offset 0 of pool 0; the LIMIT is 4. -/
def gathering (idx : Nat) : Chip :=
  let c := moving 3 0 0 4 []
  { c with mem := (List.range 4).foldl (fun m i => m.storeByte i (MByte.clean ((leBytes 4 idx).getD i 0))) c.mem }

theorem witness_MoverRowsAreStored :
    [1, 2].all (fun op => ((moving op 5 6 0 []).moverPass 0 op).any fun x =>
        x.2.2.1.y == 1 && x.2.2.1.z == 1 && x.2.2.1.dstMem == 3 && decide (x.2.2.1.dst + x.2.2.1.x ≤ memSize 3) && x.2.2.2 == 1) ∧
      [0xFFFFFFFF, 4, 3].all (fun idx => let c := gathering idx
        gatherIndex (c.fabRead 0 0 4).1 == some idx && ((c.moverPass 0 3).any fun x => x.2.2.2 == 1 && x.2.2.1.p2 == 4)) ∧
      done (.gather 0) (gathering 4) (fun c => c.fld (F.MOV_GATHER_LOG.INDEX) == 4 && c.fld F.MEM_EVENTS.GATHER_RANGE == 1) ∧
      done (.moverFill 0) (moving 2 0x04030201 0x08070605 0 []) (fun c => c.mem.byte (memKey 3 129) == 2) := by decide +kernel

theorem witness_ExpertPassesSelectAndCopy :
    (moving 4 0 0 0 (zeros 48)).layers.length = 1 ∧
      ((moving 4 0 0 0 (zeros 48)).moverPass 0 4).any (fun x => x.2.2.2 == 1) ∧
      ((moving 5 0 0 0 (zeros 4 ++ leBytes 2 1 ++ leBytes 2 1 ++ zeros 24)).moverPass 0 5).any (fun x =>
        let q := CombineParam.ofBytes (sliceOf (moverConsts x.2.1.body) x.2.2.1.p0 32)
        q.tiles == 1 && q.tokens == 1) ∧
      (let c := moving 6 0 0 0 (zeros 16)
       let p := { c with layers := c.layers.map fun x : Layer => { x with pending := some [some 1] } }
       let w := { c with layers := c.layers.map fun x : Layer => { x with switched := true } }
       (p.layer false 0).any (fun x => !x.switched && x.pending == some [some 1]) ∧
         (w.layer false 0).any (fun x => x.switched) ∧ (p.moverPass 0 6).isSome) := by decide +kernel

theorem witness_PlacementDecidesAndSwitches :
    let due := { ticking with layers := ticking.layers.map fun x : Layer =>
      { x with dueDecision := true, dueSwitch := true, pending := some [some 1] } }
    due.dev.ticking = true ∧ due.image.layerRecs[0]?.isSome ∧ due.layers[0]?.isSome ∧
      due.image.policies.any (fun p => p.layer == 0) ∧
      done (.placementDecision 0) due (fun c => c.fld F.RT_EVENTS.PLACE_SKIP == 1) ∧
      done (.placementSwitch 0) due (fun c => c.layers.any fun x => x.pending.isNone && x.version == 1 && x.seats == [some 1]) := by
  decide +kernel

/-- A chip that holds these clean bytes. -/
def holding (c : Chip) (k : Nat) (bs : List Byte) : Chip := { c with mem := c.mem.storeBytes k (bs.map MByte.clean) }

theorem witness_FabricRequestsAreServed :
    let down := { chip .run with fabric := { Fabric.fresh with down := [1] } }
    down.memDown 3 = true ∧ flitWf 19 3 1023 = true ∧ inBlock 3 63 1 = true ∧ (chip .run).memDown 3 = false ∧ 63 + 1 ≤ memSize 3 ∧ CleanAt Mem.fresh (memKey 3 63) 1 ∧
      done (.rdReq 19 3 1023 3 63 1 []) (holding (chip .run) (memKey 3 63) [9]) (fun c => c.fabric.net.map (fun r => r.data) == [[MByte.clean 9]]) ∧
      done (.wrReq 19 3 1023 3 63 [MByte.clean 9]) (chip .run) (fun c => c.mem.byte (memKey 3 63) == 9) ∧
      done (.rdReq 1 0 0 3 63 1 []) down (fun c => c.fld F.FLT_PART.ABORTS == 1) := by decide +kernel

/-- Queue 65 535, ACTIVE unless said otherwise, class Bulk, elements of 8 bytes, owner 0, a ring of 64 bytes at the end of Basin 47. -/
def queueOf (state cls owner head tail : Nat) : Chip :=
  holding (holding (chip .run) (32 * 65535) (leBytes 1 state ++ leBytes 1 cls ++ zeros 2 ++ leBytes 1 owner ++ zeros 3 ++
    leBytes 4 0x2FFFFC0 ++ leBytes 1 6 ++ zeros 3 ++ leBytes 4 head ++ leBytes 4 tail ++ zeros 8)) 0x2FFFFC0 (leBytes 8 77)

theorem witness_QueuesPushPopAndThaw :
    let c := queueOf 1 2 0 0xFFFFFFF8 0xFFFFFFFF
    let d := c.mem.descriptor 65535
    let e := queueOf 1 2 0 5 5
    let z := queueOf 2 2 0 5 6
    CleanAt c.mem (32 * 65535) 32 ∧ QDesc.malformed d = false ∧ QDesc.state d = 1 ∧ QDesc.ringMem d = 0 ∧ QDesc.credits d = 0 ∧
      QDesc.fill d ≠ QDesc.capacity d ∧ (List.replicate 8 MByte.aborted).length ≤ QDesc.size d ∧ 0 = QDesc.owner d ∧ QDesc.fill d ≠ 0 ∧
      CleanAt c.mem (memKey (QDesc.ringMem d) (QDesc.slot d (QDesc.head d))) (QDesc.size d) ∧
      QDesc.fill (e.mem.descriptor 65535) = 0 ∧ z.dev.open = true ∧ QDesc.state (z.mem.descriptor 65535) = 2 ∧
      done (.qPush 7 0 0 65535 (List.replicate 8 MByte.aborted)) c (fun c => QDesc.tail (c.mem.descriptor 65535) == 0) ∧
      done (.qPop 0 0 0 65535) c (fun c => c.fabric.net.map (fun r => r.data) == [(leBytes 8 77).map MByte.clean]) ∧
      done (.qPop 0 0 0 65535) e (fun c => c.fabric.net.map (fun r => r.status) == [6]) ∧
      done (.flush 65535) z (fun c => QDesc.head (c.mem.descriptor 65535) == 6) ∧
      done (.resume 65535) e (fun c => c.fld F.Q_EVENTS.UNFREEZE_REJECTED == 1) := by decide +kernel

theorem witness_HostReachesTheQueues :
    let c := queueOf 1 2 0 8 9
    let d := c.mem.descriptor 65535
    let other := queueOf 1 1 19 8 9
    c.dev.open = true ∧ CleanAt c.mem (32 * 65535) 32 ∧ QDesc.malformed d = false ∧ QDesc.state d = 1 ∧ QDesc.ringMem d = 0 ∧
      QDesc.cls d = 2 ∧ QDesc.credits d = 0 ∧ QDesc.fill d ≠ QDesc.capacity d ∧ QDesc.owner d = 0 ∧ QDesc.fill d ≠ 0 ∧
      CleanAt c.mem (memKey (QDesc.ringMem d) (QDesc.slot d (QDesc.head d))) (QDesc.size d) ∧
      QDesc.cls (other.mem.descriptor 65535) = 1 ∧ QDesc.owner (other.mem.descriptor 65535) = 19 ∧
      done (.qhPush 65535) c (fun c => c.fld F.QH_STATUS.STATUS == 0 && QDesc.tail (c.mem.descriptor 65535) == 10) ∧
      done (.qhPop 65535) c (fun c => c.qhData.take 8 == leBytes 8 77) ∧
      done (.qhPush 65535) other (fun c => c.fld F.QH_STATUS.STATUS == 7) ∧
      done (.qhPop 65535) other (fun c => c.fld F.QH_STATUS.STATUS == 7) ∧
      done (.qhPush 65535) { c with dev := .faultStop } (fun c => c.fld F.QH_STATUS.STATUS == 7) ∧
      done (.qSelWrite 65535) c (fun c => c.word (A.Q_SNAP + 4 * 5) == 9) := by decide +kernel

/-- Replies of every kind are on their way to node 3, each on a VC of its own, one to node 0, two writes wait at the host, and a push is
stalled. -/
def replying : Chip :=
  let r (k : ReplyKind) (vc : Nat) : Reply :=
    { kind := k, src := 0, dst := 3, vc := vc, tag := 0, mem := 0, addr := 0, bytes := 0, data := [], popped := true }
  { chip .run with
    fabric := { Fabric.fresh with
      net := [r .rdData 0, r .wrAck 1, r .qReply 2, r .resetAbort 3, { r .regReply 3 with dst := 0 }],
      stalled := [{ lane := 8, src := 11, queue := 65535, data := [], flit := some (2, 9) }] },
    host := { HostIf.fresh with writes := [⟨4, true⟩, ⟨8, false⟩] } }

theorem witness_RepliesReachTheirRequesters :
    let down := { replying with fabric := { replying.fabric with down := List.range 9 } }
    down.nodeDown 3 = true ∧ replying.nodeDown 3 = false ∧ replying.fabric.net.length = 5 ∧ replying.fabric.net.all (fun r => r.dst != 4) ∧
      replying.fabric.stalled.map (fun p => p.lane) = [8] ∧ replying.host.writes.map (fun w => w.sent) = [true, false] ∧
      same (.rdData ⟨0, 4, 0⟩) replying ∧ same (.rdData ⟨0, 3, 1⟩) replying ∧
      [Instr.rdData ⟨0, 3, 0⟩, .wrAck ⟨0, 3, 1⟩, .qReply ⟨0, 3, 2⟩, .resetAbort ⟨0, 3, 3⟩].all (fun i => done i replying fun c =>
        c.fabric.net.length == 4 && c.fabric.arrived.length == 1) ∧
      done (.rdData ⟨0, 3, 0⟩) down (fun c => c.fabric.net.length == 4 && c.fld F.FLT_PART.LOST == 1) ∧
      done .reg replying (fun c => c.host.writes.map (fun w => w.sent) == [true, true] && c.fabric.net.length == 6) ∧
      done .regReply replying (fun c => c.host.writes.length == 1) ∧
      done (.pushRetry 8) replying (fun c => c.fabric.stalled.isEmpty && (c.fabric.net.getLast?.any fun r =>
        r.kind == .qReply && r.dst == 11 && r.vc == 2 && r.tag == 9 && r.status == 3)) := by decide +kernel

theorem witness_ErrorCodesCorrectWhatTheyPromise :
    let ds : List Byte := [0, 1, 2, 3, 4, 5, 6, 255]
    let w := ds ++ [(rsEncode ds).1, (rsEncode ds).2]
    ds.length = 8 ∧ rsDecode none (rsFix w 9 255) = ⟨ds, .corrected, 9⟩ ∧ rsDecode (some 0) (w.set 0 9) = ⟨ds, .clean, 0xF⟩ ∧
      (rsDecode (some 9) (rsFix w 0 1)).outcome = .uncorrectable ∧ secDecode 8 (secEncode 0 false) = (0, .corrected) ∧
      secEncode 1 false = 0x13 ∧ secSyndrome 0 0x10 = 0x10 ∧ secDecode 0 0x10 = (0, .corrected) ∧ secSyndrome 0 0x1D = 0x0D ∧
      secSyndrome 0 0x0D = 0x1D ∧ (secDecode (Mem.fresh.setCheck 5 0x0D |>.byte 5) 0x0D).2 = .uncorrectable := by decide +kernel

theorem witness_DiesAreLostOnceAndBytesWrittenBack :
    let c := put (chip .run) [(F.ECC_DIE_CFG.THRESH, 2), (F.ECC_DIE_CE.CURRENT.el 9, 2)]
    let l := put c [(F.ECC_STATUS.LOST_DIE, 1)]
    let back := { c with mem := { c.mem with writeBack := [(7, 5)] } }
    c.fld F.ECC_DIE_CFG.THRESH = 2 ∧ c.fld (F.ECC_DIE_CE.CURRENT.el 9) = 2 ∧ c.dev.declares = true ∧ c.lostDie = none ∧
      c.dev.open = true ∧ l.lostDie = some 1 ∧ c.dev.live = true ∧ back.mem.writeBack ≠ [] ∧
      (opened .faultStop).dev.portsAnswer = true ∧ (opened .faultStop).dev.open = false ∧
      done (.eccDeclare 0x4543 9) (opened .faultStop) (fun d => d.fld F.ECC_EVENTS.DECLARE_REJECTED == 1) ∧
      done (.channelLoss [9, 8]) c (fun d => d.dev == .faultStop && d.lostDie.isNone) ∧
      [Instr.dieThreshold [9], .channelLoss [9], .eccDeclare 0x4543 9].all (fun i => done i c fun d => d.lostDie == some 9) ∧
      done (.eccDeclare 0x4543 9) l (fun d => d.fld F.ECC_EVENTS.DECLARE_REJECTED == 1) ∧
      done (.channelLoss [9]) l (fun d => d.dev == .faultStop) ∧
      done .eccWindowEnd c (fun d => d.fld (F.ECC_DIE_CE.LAST.el 9) == 2 && d.fld (F.ECC_DIE_CE.CURRENT.el 9) == 0) ∧
      done .ceWriteBack back (fun d => d.mem.byte 7 == 5) := by decide +kernel

theorem witness_ScrubbersVisitTheMemories :
    let c : Chip := { put (chip .hold) [(F.SCRUB_BG_PLAIN.POINTER, 16777215), (F.SCRUB_T_START.VALUE, 64 * 16777215), (F.SCRUB_T_COUNT.VALUE, 1)] with
      force := ((RegFile.setFld [] F.SCRUB_CFG.PLAIN_S 1).setFld F.SCRUB_CFG.BASIN_S 1) }
    let p := { c with scrub := some { plain := true, next := 3, left := 1 } }
    let b := { c with mem := { c.mem with scrubBack := [(9, List.replicate 64 7)] } }
    c.dev.scrubs = true ∧ c.scrub = none ∧ c.live F.SCRUB_CFG.PLAIN_S ≠ 0 ∧ c.live F.SCRUB_CFG.BASIN_S ≠ 0 ∧
      c.mem.mapped 16777215 = false ∧ CleanAt c.mem 0 64 ∧ b.mem.scrubBack.map (fun e => e.2.length) = [64] ∧ c.dev.open = true ∧
      c.fld F.SCRUB_T_START.VALUE / 64 + c.fld F.SCRUB_T_COUNT.VALUE % 0x2000000 = 16777216 ∧
      c.dev.portsAnswer = true ∧ c.dev.ticking = false ∧ c.sched.before c.now A.SCRUB_CFG = none ∧
      done (.scrubPlainVisit []) c (fun c => c.fld F.SCRUB_BG_PLAIN.POINTER == 0 && c.fld F.SCRUB_BG_PLAIN.PASSES == 1) ∧
      done (.scrubBasinVisit []) c (fun c => c.fld F.SCRUB_BG_BASIN.POINTER == 1) ∧
      done .scrubWriteBack b (fun c => c.mem.byte (memKey 8 (64 * 9 + 63)) == 7) ∧
      done (.scrubGo 1) c (fun c => c.scrub == some { plain := true, next := 16777215, left := 1 }) ∧
      done (.scrubGo 0) c (fun c => c.fld F.SCRUB_T_STATUS.RESULT == 3) ∧ done (.scrubGo 1) p (fun c => c.fld F.SCRUB_EVENTS.BUSY_IGNORED == 1) ∧
      done (.scrubTVisit []) p (fun c => c.scrub.isNone && c.fld F.SCRUB_T_STATUS.RESULT == 1) ∧
      done .scrubAbort p (fun c => c.fld F.SCRUB_T_STATUS.RESULT == 2) ∧ done .intervalEnd c (fun d => d.stamp == c.stamp + 1) := by
  decide +kernel

/-- A lens driver with VDDVCM in range, in this state. -/
def lens (d : DevState) (b : Bridge) (coarse handover : Bool) (pos : Int) : Chip :=
  let c := put (chip d) [(F.VCM_SLEW.MA_PER_MS, 1), (F.VCM_TARGET.UA, 1000)]
  { c with loop := { c.loop with vcm := { Vcm.fresh with
      bridge := b, coarse := coarse, handover := handover, pos := pos, used := true, supplyOk := true,
      waiting := decide (b = .rampOff 2) } } }

theorem witness_VcmCommandsDriveTheBridge :
    let z := lens .run .z false false 0
    let d := lens .run .driving false false 0
    let wide := lens .run .driving true true (30000 * 150000)
    let r := lens .run (.rampOff 2) false false 60000
    z.dev.ticking = true ∧ z.loop.vcm.supplyOk = true ∧ z.loop.vcm.bridge = .z ∧ (lens .hold .z false false 0).dev.ticking = false ∧
      d.loop.vcm.bridge = .driving ∧ d.fld F.LOOP_STATUS.VCM_OWNER = 0 ∧ d.loop.vcm.coarse = false ∧ d.loop.vcm.handover = false ∧
      wide.loop.vcm.coarse = true ∧ withinFine (wide.loop.vcm.code * 150000) = false ∧ wide.loop.vcm.handover = true ∧
      r.loop.vcm.bridge = .rampOff 2 ∧
      done .vcmEnable z (fun c => c.loop.vcm.bridge == .driving) ∧
      done .vcmEnable (lens .hold .z false false 0) (fun c => c.fld F.LOOP_EVENTS.ENABLE_REJECTED == 1) ∧
      done .vcmEnable (lens .faultStop .z false false 0) (fun c => c.fld F.LOOP_EVENTS.ENABLE_REJECTED == 1) ∧
      done .vcmDisable d (fun c => c.loop.vcm.bridge == .rampOff 1) ∧ done (.vcmRange true) d (fun c => c.loop.vcm.coarse) ∧
      done (.vcmRange false) wide (fun c => c.fld F.LOOP_EVENTS.RANGE_REJECT == 1) ∧
      done (.vcmTargetWrite (-8388608)) d (fun c => c.sfld F.VCM_TARGET.UA == -8388608) ∧
      done .vcmUpdate d (fun c => c.loop.vcm.pos == d.slewStep) ∧ done .vcmTrack d (fun c => c.fld F.VCM_STATUS.Z_CAUSE == 5) ∧
      done .vcmOvercurrent d (fun c => c.fld F.VCM_STATUS.Z_CAUSE == 6) ∧ done .vddvcmLow d (fun c => !c.loop.vcm.supplyOk) ∧
      done .handoverEnd wide (fun c => !c.loop.vcm.handover) ∧ done .vcmRampEnd r (fun c => c.loop.vcm.bridge == .driving) := by
  decide +kernel

/-- A chip in RUN with one set waiting, of these elements. -/
def looping (els : List (List Byte)) : Chip :=
  let c := put ticking [(F.PIX_STATUS.EXP_OWNER, 1)]
  { c with loop := { c.loop with waiting := [{
      unit := 0, frame := 2 ^ 32 - 1, lane := 0, incomplete := false, edge := 0, gate := 0,
      elements := els.map fun e => e.map MByte.clean }] } }

theorem witness_LoopSetsAreAppliedOrHeld :
    let set := [leBytes 1 2 ++ zeros 3 ++ leBytes 4 0xFFFFFF ++ leBytes 4 5 ++ zeros 4]
    let w := (looping set).loop.waiting
    (looping set).dev.ticking = true ∧ (w.map LoopSet.result) = [1] ∧ (w.any fun x => (x.last 2).isSome && (x.last 1).isNone) ∧
      (looping set).fld F.PIX_STATUS.EXP_OWNER = 1 ∧ ((looping []).loop.waiting.map LoopSet.result) = [5] ∧
      (((looping [leBytes 1 9 ++ zeros 15]).loop.waiting.map LoopSet.result)) = [4] ∧
      done .loopApply (looping set) (fun c => c.fld F.EXP_LONG.CYCLES == 0xFFFFFF && c.fld F.CTRL_COUNTS.APPLIED == 1) ∧
      done .loopApply (looping []) (fun c => c.fld F.LOOP_STATUS.LAST_RESULT == 5 && c.fld F.LOOP_STATUS.HELD_RUN == 1) := by decide +kernel

theorem witness_PrivacyFollowsTheTwoInputs :
    let c := put (chip .hold) [(F.PRIV_CFG.DISC_TIME, 2), (F.PRIV_STATUS.AGREE_RUN, 2), (F.PRIV_STATUS.FAULT, 1)]
    let b := put c [(F.PRIV_STATUS.AGREE_RUN, 1)]
    c.dev ≠ .off ∧ c.dev.open = true ∧ c.discTime ≤ c.fld F.PRIV_STATUS.AGREE_RUN ∧ b.fld F.PRIV_STATUS.AGREE_RUN < b.discTime ∧
      c.dev = .hold ∧ (chip .run).dev ≠ .hold ∧
      done (.privSample false true) c (fun d => d.fld F.PRIV_STATUS.AGREED == 0 && d.fld F.PRIV_STATUS.EFFECTIVE == 1) ∧
      done (.privSample true true) c (fun d => d.fld F.PRIV_STATUS.DISC_COUNT == 1) ∧
      done (.privClear 0x5052) c (fun d => d.fld F.PRIV_STATUS.FAULT == 0) ∧
      done (.privClear 0x5052) b (fun d => d.fld F.PRIV_EVENTS.CLEAR_REJECTED == 1) ∧
      done (.privCfgWrite 255) c (fun d => d.fld F.PRIV_CFG.DISC_TIME == 255) ∧ same (.privCfgWrite 255) (chip .run) := by decide +kernel

/-- RUN with a 1S port and a byte of the Glance front buffer. -/
def hosting : Chip := holding (chip .run) (memKey 9 0x1FFF) [5]

theorem witness_XspiAnswersReadsAndTakesWrites :
    let held : Fetch := { addr := 64, behind := 0, held := some [1, 2], returned := false }
    let f := { hosting with host := { hosting.host with fetchX := some held } }
    let g := { hosting with host := { hosting.host with fetchX := some { held with addr := 60, held := none } } }
    let eight := { hosting with host := { hosting.host with eightD := true, txn := some (.mode false) } }
    hosting.dev.portsAnswer = true ∧ hosting.host.txn = none ∧ hosting.host.fetchX = none ∧ hosting.host.eightD = false ∧
      CleanAt hosting.mem (memKey 9 (0x2000 * hosting.host.front + 0x1FFF)) 1 ∧ hosting.commandGood 0xEE 0 = true ∧
      hosting.commandGood 0x9F 0 = false ∧ f.fetchOf .xspi = some held ∧ (g.fetchOf .xspi).map (fun x => x.held) = some none ∧
      hosting.once.contains (Code.XSPI_BAD_COMMAND, noUnit) = false ∧
      done (.read 64 2) hosting (fun c => c.host.outX == [1, 0, 0, 0, 0, 0]) ∧ done (.read 64 2) f (fun c => c.host.outX == [0, 2, 0, 0, 1, 2]) ∧
      done (.read (0x20000 + 0x1FFF) 1) hosting (fun c => c.host.outX == [5]) ∧
      done (.write A.PIX_CTRL [1, 0, 0, 0]) hosting (fun c => c.fld F.PIX_CTRL.EXP_OWNER == 1) ∧
      done .enter8d hosting (fun c => c.host.txn == some (.mode true)) ∧ done .xspiCsRise eight (fun c => !c.host.eightD) ∧
      done (.xspiBadCommand 0x9F 0) hosting (fun c => c.fld F.HIF_EVENTS.BAD_COMMAND == 1) ∧
      done (.fetchComplete .xspi) g (fun c => (c.fetchOf .xspi).any fun x => x.held.isSome) ∧
      done (.fetchExpire .xspi) f (fun c => (c.fetchOf .xspi).isNone) ∧
      done (.timeLoRead .i3c) hosting (fun c => c.host.outI == [0, 0, 0, 0]) := by decide +kernel

theorem witness_HostReachesRegistersAndMemories :
    let c := opened .hold
    let full := { c with host := { c.host with writes := List.replicate 256 ⟨0, false⟩ } }
    let line : List Byte := List.replicate 64 3
    let filling := { c with mem := { c.mem with hostLine := some (16777215, (line.map some).set 63 none) } }
    c.dev.open = true ∧ c.host.writes.length < 256 ∧ (rowOf A.TICK_CTRL).isSome ∧ rowOf 0x16FFC = none ∧
      full.host.writes.length = 256 ∧ c.windowWritable = true ∧ c.mem.hostLine = none ∧ c.lostDie = none ∧ c.windowReadable = true ∧
      (opened .run).windowWritable = true ∧ (opened .load).windowReadable = false ∧ (opened .load).dev.portsAnswer = true ∧
      CleanAt c.mem 0x2FFFFFF 1 ∧ c.mem.mapped 16777215 = false ∧ line.getLast? = some 3 ∧
      done (.registerWrite A.TICK_CTRL 5) c (fun d => d.host.writes == [⟨A.TICK_CTRL, false⟩]) ∧
      done (.registerWrite A.TICK_CTRL 5) full (fun d => d.fld F.HIF_EVENTS.WRITE_OVERFLOW == 1) ∧
      done (.hostBasinWrite 0x1FFFFF [9]) c (fun d => d.mem.byte 0x1FFFFF == 9) ∧
      done (.hostBasinWrite 0x1FFFFF [9]) (opened .run) (fun d => d.mem.byte 0x1FFFFF == 0 && d.fld F.MEM_EVENTS.HOST_FORBIDDEN == 1) ∧
      done (.hostBasinWrite 0x200000 [9]) (opened .run) (fun d => d.mem.byte 0x200000 == 9) ∧
      done (.hostPlainWrite 0x3FFFFFFF [3]) c (fun d => d.fld F.HOSTWIN_STATUS.BYTES == 1) ∧
      done (.hostPlainWrite 0x3FFFFFFF [3]) filling (fun d => d.mem.byte (memKey 8 0x3FFFFFFF) == 3 && d.mem.hostLine.isNone) ∧
      done (.hostWindowRead 0x12FFFFFF 1) c (fun d => d.host.outX == [0]) ∧
      done (.hostWindowRead 0x7FFFFFFF 1) c (fun d => d.host.outX == [0xFF] && d.fld F.MEM_EVENTS.NEVER_WRITTEN == 1) := by
  decide +kernel

theorem witness_ReservedWordsReadZeroAndIgnoreWrites :
    let c := opened .fill
    let f : Fetch := { addr := 0x16FFC, behind := 0, held := none, returned := false }
    let d := { c with host := { c.host with fetchX := some f } }
    c.dev.portsAnswer = true ∧ c.host.writes.length < 256 ∧ c.host.txn = none ∧ c.host.stretch = none ∧
      [0xFFC, 0x27FC, 0x16FFC, 0x1FFFC].all (fun a => (rowOf a).isNone && !inAperture a &&
        done (.registerWrite a 0xFFFFFFFF) c (fun e => e.host.writes == [⟨a, false⟩]) &&
        done (.write a [1, 2, 3, 4]) c (fun e => e.host.writes == [⟨a, false⟩])) ∧
      d.fetchOf .xspi = some f ∧ done (.fetchComplete .xspi) d (fun e => e.host.fetchX == some { f with held := some [0, 0, 0, 0] }) := by
  decide +kernel

/-- The I3C port with a dynamic address, its pointer at the last word of a block, and a fetch of it. -/
def addressed (held : Option (List Byte)) : Chip :=
  let c := put (chip .hold) [(F.I3C_STATUS.DA, 8), (F.I3C_STATUS.DA_VALID, 1), (F.I3C_STATUS.IBI_EN, 1)]
  { c with host := { c.host with pointer := 60, fetchI := some { addr := 60, behind := 0, held := held, returned := false } } }

theorem witness_I3cTransfersUseThePointer :
    let c := chip .hold
    let d := put c [(F.I3C_STATUS.DA_VALID, 1)]
    let s := { c with host := { c.host with pointer := 60, stretch := some 4 } }
    let h := { c with host := { c.host with fetchI := some { addr := 60, behind := 0, held := some [1, 2, 3, 4], returned := false } } }
    c.i3cUp = true ∧ d.i3cAddressed = true ∧ c.i3cAddressed = false ∧ inGlance (beNat [0, 0, 0, 60]) = false ∧ d.host.fetchI = none ∧
      (addressed none).i3cAddressed = true ∧ (addressed none).host.fetchI.map (fun f => f.held) = some none ∧ s.host.stretch = some 4 ∧
      done (.i3cPrivateWrite (0, [0, 0, 0, 60])) d (fun c => c.host.pointer == 60) ∧
      done (.i3cPrivateWrite (1, [0, 0, 0, 60])) d (fun c => c.host.nack) ∧ done (.i3cPrivateRead (0, 1)) c (fun c => c.host.nack) ∧
      done (.i3cPrivateRead (8, 3)) (addressed (some [1, 2, 3, 4])) (fun c => c.host.outI == [1, 2, 3]) ∧
      done (.i3cPrivateRead (8, 3)) (addressed none) (fun c => c.host.nack) ∧
      done (.i2cTransfer (0x36, [0, 0, 0, 60]) 3) c (fun c => c.host.stretch == some 3) ∧
      done (.i2cTransfer (0x37, [0, 0, 0, 60]) 3) c (fun c => c.host.nack) ∧
      done (.i2cTransfer (0x37, [0, 0, 0, 60]) 3) (put c [(F.STRAPS.ADDR_SEL, 1)]) (fun c => c.host.stretch == some 3) ∧
      done (.i2cTransfer (0x36, [0, 0, 0, 60]) 3) h (fun c => c.host.outI == [1, 2, 3]) ∧
      done .stretchTimeout s (fun c => c.host.outI == [0xFF, 0xFF, 0xFF, 0xFF]) := by decide +kernel

theorem witness_I3cCommonCommands :
    let c := chip .hold
    let a := put (addressed none) [(F.HIF_IRQ_EN.CSI, 1), (F.HIF_IRQ_STATUS.CSI, 1)]
    c.i3cUp = true ∧ c.i3cAddressed = false ∧ a.i3cUp = true ∧ a.i3cAddressed = true ∧ a.fld F.I3C_STATUS.IBI_EN = 1 ∧ a.irqRequested ≠ 0 ∧
      done (.entdaa 127) c (fun d => d.fld F.I3C_STATUS.DA == 127) ∧ done (.setnewda 9) a (fun d => d.fld F.I3C_STATUS.DA == 9) ∧
      same (.entdaa 9) a ∧ done (.setdasa (0x36, 9)) a (fun d => d.host.nack) ∧
      done (.setdasa (0x36, 9)) c (fun d => d.fld F.I3C_STATUS.DA == 9) ∧ done (.setdasa (0x37, 9)) c (fun d => d.host.nack) ∧ done .getbcr a (fun d => d.host.outI == [6]) ∧
      done .getbcr c (fun d => d.host.nack) ∧ done (.disec 1) a (fun d => d.fld F.I3C_STATUS.IBI_EN == 0) ∧
      (match exec (.ibiRequest true) { st a with irqDue := true } with
        | .next t => t.chip.host.outI == [5, 32, 0, 0, 0] && !t.irqDue
        | _ => false) = true ∧ same (.ibiRequest false) a ∧
      (match exec (.ibiRequest false) { st a with irqDue := true } with | .next t => t.irqDue | _ => false) = true ∧
      (match exec .arm (st (put a [(F.HIF_IRQ_STATUS.CSI, 0)])) with | .next t => !t.irqDue | _ => false) = true ∧
      (match exec .csiStart (st (put a [(F.HIF_IRQ_STATUS.CSI, 0)])) with | .next t => t.irqDue | _ => false) = true ∧
      done .targetReset a (fun d => d.fld F.I3C_STATUS.DA_VALID == 0) := by decide +kernel

/-- CSI-2 running, with a frame of two front packets. -/
def sending (front : List Packet) (back : Option (List Packet)) : Chip :=
  let c := put (chip .run) [(F.CSI_STATUS.STATE, 2)]
  { c with host := { c.host with csi := [{
      frame := 7, front := front, crops := [], headed := false, rows := 0, back := back, seals := [], head := zeros 256, cropSeal := none,
      tagged := [], key := zeros 32, rowsSent := 0, cutBw := 0, cutPriv := 0, poisoned := 0, noRows := false, privStop := false }] } }

theorem witness_CsiOutputsAndTimebase :
    let p : Packet := ⟨0, 0, [7, 0]⟩
    let begun := put (chip .run) [(F.CSI_STATUS.STATE, 1)]
    (chip .run).dev.ticking = true ∧ (chip .run).fld F.CSI_STATUS.STATE = 0 ∧ (chip .hold).dev.ticking = false ∧
      begun.fld F.CSI_STATUS.STATE = 1 ∧ (sending [p] none).fld F.CSI_STATUS.STATE = 2 ∧ (sending [p] none).host.csi.length = 1 ∧
      done .csiStart (put (chip .run) [(F.CSI_CFG.LANES, 7), (F.CSI_CFG.LANE_MBPS, 4095)]) (fun c =>
        c.fld F.CSI_STATUS.LANES == 4 && c.fld F.CSI_STATUS.MBPS == 2500) ∧
      done .csiStart (chip .hold) (fun c => c.fld F.CSI_EVENTS.START_REJECTED == 1) ∧
      done .csiStart (chip .faultStop) (fun c => c.fld F.CSI_EVENTS.START_REJECTED == 1) ∧
      done .csiStop begun (fun c => c.fld F.CSI_STATUS.STATE == 0) ∧
      done .pllCLockTimeout begun (fun c => c.fld F.CSI_STATUS.STATE == 0) ∧
      done .csiDeskewDone begun (fun c => c.fld F.CSI_STATUS.STATE == 2) ∧
      done .csiPacket (sending [p] none) (fun c => c.host.packet == some p) ∧
      done .csiPacket (sending [] (some [p])) (fun c => c.host.csi.isEmpty && c.fld F.CSI_FRAMES.COUNT == 1) ∧
      done .setNow (put (chip .hold) [(F.TIME_SET_HI.NS, 1)]) (fun c => c.timebase == 2 ^ 32) ∧
      done .arm (chip .hold) (fun c => c.fld F.TIME_STATUS.ARMED == 1) := by decide +kernel

/-- Published examples of the standard's codes (PRESUMED, log entry 116): a header's ECC, and the CRC-16 of two payloads. -/
theorem test_csi_codes :
    let crc (n : Nat) : Nat := crc16 ((leBytes 24 n).reverse)
    headerEcc 0x01F037 = 0x3F ∧ crc 0xFF000002B9DCF372BBD4B85AC875C27C81F805DFFF000001 = 0x00F0 ∧
      crc 0xFF0000001EF01EC74F8278C582E08C70D23C78E9FF000001 = 0xE569 := by decide +kernel

/-- The device is empty-handed at the front of a frame's packets on VC 2. -/
theorem witness_CsiOutputsAndTimebase_last :
    (sending [] none).host.csi.any (fun f => f.front.isEmpty && f.crops.isEmpty && f.back.isNone) = true := by decide +kernel

/-- A push with these bytes so far, in this phase. -/
def loadingOf (d : DevState) (source : LoadSource) (bytes : List Byte) (failed : Option Nat) (phase : Nat) : Chip :=
  let c := put (chip d) [(F.IMG_STATUS.PHASE, phase), (F.IMG_STATUS.BUSY, 1), (F.IMG_TIMEOUT.MS, 1000)]
  { c with loader := { c.loader with load := some {
      source := source, hot := false, bytes := bytes, trailer := [], sections := [], wrote := [], failed := failed, slotA := none,
      started := 0 } } }

theorem witness_ImagesAreLoadedCheckedAndSwapped :
    let p := loadingOf .hold .push [0x45, 0x56] none 1
    let m := loadingOf .hold .push [0x45, 0x56, 0x53] none 1
    let f := loadingOf .load .flashA (zeros 256) none 2
    let h := loadingOf .hold .push [] (some 9) 1
    let hot := { put ticking [(F.IMG_CTRL.SWAP_ARM, 1)] with
      loader := { ticking.loader with hot := some (image 8 (moverBody 1 0 0 0 [])) } }
    (chip .hold).dev.open = true ∧ (chip .hold).lifecycle ≠ 5 ∧ (chip .hold).loader.load = none ∧ (chip .hold).otp.job = none ∧
      p.loader.load.any (fun l => l.failed.isNone && l.source == .push && !l.complete && decide (l.bytes.length + 1 = 3)) ∧
      p.fld F.IMG_TIMEOUT.MS ≠ 0 ∧ m.loader.load.any (fun l => decide (l.bytes.length + 1 = 4)) ∧
      f.loader.load.any (fun l => l.source == .flashA && !l.bytes.isEmpty && l.trailer.isEmpty && !l.complete && !trailerOk l.bytes []) ∧
      trailerOk (zeros 256) ([0x45, 0x56, 0x53, 0x45] ++ zeros 12) = true ∧
      (loadingOf .hold .push (zeros 336) none 5).inPhase 5 ≠ none ∧ h.loader.load.any (fun l => l.failed.isSome) ∧
      hot.swapDue = true ∧ hot.sched.edgeHalf = false ∧ hot.sched.drain = false ∧
      done .start (chip .hold) (fun c => c.loader.load.isSome) ∧ done .abort p (fun c => c.fld F.IMG_STATUS.ERROR == Ld.ABORTED) ∧
      done .pushTimeout p (fun c => c.fld F.IMG_STATUS.ERROR == Ld.TIMEOUT) ∧
      done (.pushByte 0x53) p (fun c => c.loader.load.any fun l => l.bytes.length == 3) ∧
      done (.pushByte 0) m (fun c => c.fld F.IMG_STATUS.ERROR == Ld.NO_MAGIC) ∧
      done (.flashReadDone []) f (fun c => c.fld F.IMG_FLASH.ERR_A == Ld.TRUNCATED) ∧ !trailerOk (zeros 256) (zeros 16) ∧
      done (.flashReadDone (zeros 16)) f (fun c => c.fld F.IMG_FLASH.ERR_A == Ld.BAD_TRAILER) ∧
      done .loadCleanupDone h (fun c => c.loader.load.isNone && c.fld F.IMG_STATUS.BUSY == 0) ∧
      done .hotSwap hot (fun c => c.loader.hot.isNone && c.sched.swapTick) := by decide +kernel

/-- HOLD with VPP_OTP in range, lifecycle code `lc`, an admitted image at rollback 3, and TARGET 3. -/
def burning (lc : Nat) : Chip :=
  put (chip .hold) [(F.LIFECYCLE.STATE, lc), (F.OTP_VPP.IN_RANGE, 1), (F.DEV_STATE.IMAGE_OK, 1), (F.IMG_ROLLBACK.IMAGE, 3),
    (F.OTP_PARAM.TARGET, 3), (F.OTP_PARAM.LENGTH, 1), (⟨A.OTP_BUF, 0, 32⟩, 5), (F.STRAPS.TMODE, 1)]

theorem witness_OtpRequestsStartOrAreRefused :
    let c := burning 2
    let scan := { c with otp := { c.otp with job := some { kind := .ctrl 6 15, todo := [], tries := 0, stopping := false } } }
    let pulse := { c with otp := { c.otp with job := some { kind := .ctrl 1 15, todo := [9], tries := 0, stopping := false } } }
    c.dev.open = true ∧ c.otpRefusal 0x4F54 1 13 1 = 0 ∧ otpSeal [] 13 = false ∧ 32 * max 1 (c.fld F.OTP_PARAM.LENGTH) ≤ bodyCapacity 13 1 ∧
      c.otpRefusal 0x4F54 2 13 0 = 0 ∧ otpWl [] 13 = false ∧ c.otpRefusal 0x4F54 3 13 0 = 0 ∧ otpRl [] 13 = false ∧
      c.otpRefusal 0x4F54 6 15 0 = 0 ∧ c.otpRefusal 0x4F54 7 15 0 = 0 ∧ c.otpRefusal 0x4F54 4 9 0 = 0 ∧ rollbackCounter [] < 3 ∧
      c.otpRefusal 0x4F54 5 11 0 = 0 ∧ 3 < fusedCeiling [] ∧ c.otpRefusal 0x4F54 1 0 1 ≠ 0 ∧ scan.otp.job.isSome ∧ pulse.otp.job.isSome ∧
      done (.program 0x4F54 13 1) c (fun d => d.otp.job.isSome && d.fld F.OTP_STATUS.BUSY == 1) ∧
      done (.lockWrite 0x4F54 13) c (fun d => d.otp.job.any fun j => j.todo.length == 3) ∧
      done (.rollbackAdvance 0x4F54 9) c (fun d => d.otp.job.any fun j => j.todo.length == 9) ∧
      done (.ceilingLower 0x4F54 11) c (fun d => d.otp.job.any fun j => j.todo.length == 12) ∧
      done (.reburn 0x4F54 15) c (fun d => d.fld F.OTP_STATUS.RESULT == 1) ∧
      done (.marginScan 0x4F54 15) c (fun d => d.otp.job.isSome) ∧ done (.marginScanDone []) scan (fun d => d.otp.job.isNone) ∧
      done (.otpAbort 0x4F54) pulse (fun d => d.otp.job.any fun j => j.stopping) ∧
      done (.program 0x4F54 13 1) (chip .faultStop) (fun d => d.fld F.OTP_STATUS.RESULT == 4) := by decide +kernel

/-- Pulses that pass answer a next state that meets `post`. -/
def burns (s : State) (post : State → Bool) : Bool :=
  match exec (.otpPulse 1800 true true) s with
  | .next t => post t
  | _ => false

theorem witness_PulsesBurnFusesOneByOne :
    let c := burning 2
    let j (tries : Nat) : OtpJob := { kind := .ctrl 2 13, todo := [40000], tries := tries, stopping := false }
    let s (tries : Nat) : State := st { c with otp := { c.otp with job := some (j tries) } }
    (s 3).chip.dev = .hold ∧ (s 3).chip.otp.job = some (j 3) ∧ (j 3).todo = [40000] ∧ vppInRange 1760 = true ∧ vppInRange 1840 = true ∧
      vppInRange 1841 = false ∧ burns (s 0) (fun t => fuseAt t.fuses.burned 40000 && t.chip.otp.job.isNone) := by decide +kernel

theorem witness_LifecycleAndLensRequests :
    let c := burning 3
    lcBit (lifecycleCode c.otp.lastRead) 1 = some 0 ∧ c.lcRefusal 0x4C43 1 = 0 ∧ c.lcRefusal 0x4C43 7 ≠ 0 ∧ c.dev.open = true ∧
      ((bodyCopies 0 2 0).filter fun a => !Fuses.blank.strong a) ≠ [] ∧ c.lensRefusal Fuses.blank 0x4C53 = 0 ∧
      c.lensRefusal Fuses.blank 0 ≠ 0 ∧ ((List.range 16).find? fun n => !slotUsed [] n) = some 0 ∧
      done (.lensCalProg 0x4C53) c (fun d => d.otp.job.isSome) ∧
      done (.lensCalProg 0) c (fun d => d.fld F.LENS_CAL_STATUS.RESULT == 6) ∧
      done (.lensCalProg 0x4C53) (chip .faultStop) (fun d => d.fld F.LENS_CAL_STATUS.RESULT == 3) ∧
      done (.lcCtrl 0x4C43 1) (chip .faultStop) (fun d => d.fld F.LIFECYCLE.LC_RESULT == 4) := by decide +kernel

theorem witness_UnitsAreFencedAndReset :
    let f := put (chip .hold) [(F.VALE_STATUS.FENCED.vale 5, 1)]
    let m := { chip .run with fabric := { Fabric.fresh with down := [8], resetAt := [(1, 5)] },
                              sched := { Sched.fresh with edgeNow := 2005 } }
    (chip .hold).dev.open = true ∧ (chip .hold).fenced 5 = false ∧ f.fenced 5 = true ∧ (chip .hold).moverDown 1 = false ∧
      m.moverDown 1 = true ∧ m.moverDue 1 = true ∧ m.dev.open = true ∧
      done (.fence 0x464C 5) (chip .hold) (fun c => c.fenced 5) ∧ same (.fence 0x464C 5) f ∧
      done (.fence 0x464C 5) (chip .faultStop) (fun c => !c.fenced 5) ∧
      done (.moverReset 0x464C 1) (chip .hold) (fun c => c.moverDown 1) ∧ done (.moverReturn 1) m (fun c => !c.moverDown 1) := by
  decide +kernel

theorem witness_HostClearsAndSelects :
    let c := put (chip .hold) [(⟨A.FLT_ACTIVE, 0, 32⟩, 3)]
    c.dev.faultWrites = true ∧ c.dev.open = true ∧ c.fenced 5 = false ∧
      done (.fltActiveClear 0xFFFFFFFF 1) c (fun d => d.fld ⟨A.FLT_ACTIVE, 0, 2⟩ == 1) ∧
      done .overrunLogClr c (fun d => d.fld F.OVERRUN_LOG.ENTRY == 0xFFFF) := by decide +kernel

theorem witness_SuppliesAreSampled :
    let c := chip .hold
    let e := { c with supply := { c.supply with
      rails := c.supply.rails.map fun r : Rail => { r with clean := some 8 }, range := true, vddlLow := true, lowClean := some 8 } }
    c.supply.rails.length = 6 ∧ c.dev.portsAnswer = true ∧ (chip .sense).dev.portsAnswer = false ∧
      ((List.range 6).all fun r => !railBad r (e.rail r).state && (e.rail r).clean == some 8) ∧ e.supply.low = false ∧
      e.supply.lowClean = some 8 ∧ done (.supplySample [2800, 1800, 1800, 100, 1100, 3300]) c (fun d => (d.rail 3).seen == 1) ∧
      done (.supplyConditionEnd 6) e (fun d => !d.supply.range) ∧ done (.supplyConditionEnd 7) e (fun d => !d.supply.vddlLow) := by
  decide +kernel

end Sys2Proof.Tests
end

section
/-!
PROOFS. What a reset abandons, and loss and return of power (O8).
-/
namespace Sys2Proof.Machine

/-! ### A reset -/

@[simp] theorem Chip.dev_enterReset (c : Chip) (cause : Nat) : (c.enterReset cause).dev = .resetHold := by
  simp [Chip.enterReset]

@[simp] theorem Chip.lanes_enterReset (c : Chip) (cause : Nat) : (c.enterReset cause).sched.lanes = [] := by
  simp [Chip.enterReset]

@[simp] theorem Chip.load_enterReset (c : Chip) (cause : Nat) : (c.enterReset cause).loader.load = none := by
  simp [Chip.enterReset]

theorem Chip.resetTo_of_running {c : Chip} (hoff : c.dev ≠ .off) (hreset : c.dev ≠ .resetHold) (cause : Nat) :
    c.resetTo cause = c.enterReset cause := by
  simp [Chip.resetTo, hoff, hreset]

/-- R118: a low level of 500 ns or more always resets. -/
theorem Chip.nresetLow_long {c : Chip} {w : Nat} (hw : 500 ≤ w) : c.nresetLow w = c.resetTo 2 := by
  simp [Chip.nresetLow, show ¬ w < 100 by omega, show ¬ w < 500 by omega]

/-! ### Loss of VDDA, start of the always-on island, power-good -/

theorem Chip.vddaLoss_of_on {c : Chip} (h : c.dev ≠ .off) :
    c.vddaLoss = { c.enterReset 0 with dev := .off, aon := { otpLatch := false, powerGood := false, causes := 0 } } := by
  simp [Chip.vddaLoss, h]

theorem Chip.aonStart_of_off {c : Chip} (h : c.dev = .off) :
    c.aonStart = { Chip.started c.mosaic with
      draws := c.draws
      supply := { Supply.fresh with rails := c.supply.rails.map fun r : Rail => Rail.nominal r.mv }
      loop := { vcm := c.loop.vcm, waiting := [], reports := [] } } := by
  simp [Chip.aonStart, h]

theorem Chip.powerIsGood_of_unlatched {c : Chip} (h : c.dev ≠ .off) (hl : c.aon.otpLatch = false) :
    c.powerIsGood = { c with aon := { c.aon with powerGood := true } } := by
  simp [Chip.powerIsGood, h, hl]

end Sys2Proof.Machine

namespace Sys2Proof
open Machine

/-- A command whose arm is an `act` completes with the chip that its meaning gives. -/
theorem completes_of_act {i : Instr} {s : State} {post : Chip → Prop} (f : Fuses → Chip → Chip) (harm : exec i s = act i f s)
    (hwf : i.wf = true) (hpost : post (f s.fuses s.chip)) : Completes i s post := by
  unfold Completes
  rw [harm]
  exact act_completes hwf hpost

section
variable {s : State} {post : Chip → Prop}

theorem completes_vddaLoss (h : post s.chip.vddaLoss) : Completes .vddaLoss s post :=
  completes_of_act (fun _ c => c.vddaLoss) rfl rfl h

theorem completes_aonStart (h : post s.chip.aonStart) : Completes .aonStart s post :=
  completes_of_act (fun _ c => c.aonStart) rfl rfl h

theorem completes_powerGood (h : post s.chip.powerIsGood) : Completes .powerGood s post :=
  completes_of_act (fun _ c => c.powerIsGood) rfl rfl h

end

/-- Settles O8: each of the three events by the equation of its meaning. -/
theorem powerTakesTheDeviceOffAndOn : Obligations.PowerTakesTheDeviceOffAndOn := by
  intro s
  refine ⟨fun hon => completes_vddaLoss ?_, fun hoff => completes_aonStart ?_, fun hon hlatch => completes_powerGood ?_⟩
  · rw [Chip.vddaLoss_of_on hon]
    exact ⟨rfl, rfl, Chip.lanes_enterReset s.chip 0, Chip.load_enterReset s.chip 0⟩
  · rw [Chip.aonStart_of_off hoff]
    exact ⟨rfl, rfl, rfl, rfl, rfl, rfl, rfl⟩
  · exact Chip.powerIsGood_of_unlatched hon hlatch

end Sys2Proof
end

section
/-!
PROOFS. The registers right after the exit from RESET_HOLD (O9).
-/
namespace Sys2Proof.Machine

/-- Words put one after another: a listed register reads what was put there, any other what it read before. -/
theorem RegFile.word_foldl_put (v : Nat → Word) (as : List Nat) (f : RegFile) (b : Nat) :
    RegFile.word (as.foldl (fun g a => g.put a (v a)) f) b = if b ∈ as then v b else f.word b := by
  induction as generalizing f with
  | nil => simp
  | cons a as ih =>
    rw [List.foldl_cons, ih, RegFile.word_put]
    by_cases hmem : b ∈ as
    · simp [hmem]
    · by_cases hab : b = a <;> simp [hmem, hab]

@[simp] theorem RegFile.word_nil (a : Nat) : RegFile.word [] a = resetWord a := rfl

/-- R120, R125, R659: the registers at the exit from RESET_HOLD. -/
theorem Chip.word_leaveReset (c : Chip) (straps a : Nat) :
    (c.leaveReset straps).word a =
      if a = A.STRAPS then Word.of (straps % 8)
      else if a = A.RESET_CAUSE then c.word A.RESET_CAUSE ||| Word.of c.aon.causes
      else if a ∈ aonRegs then c.word a else resetWord a := by
  have hcause : A.RESET_CAUSE ∈ aonRegs := by simp [aonRegs]
  simp only [Chip.leaveReset, Chip.word, RegFile.word_put, RegFile.word_foldl_put, RegFile.word_nil, hcause, ↓reduceIte]

/-- The lens driver shows itself in two registers. -/
theorem Chip.word_showVcm (c : Chip) {a : Nat} (hstatus : a ≠ A.VCM_STATUS) (htarget : a ≠ A.VCM_TARGET_FORCE) :
    c.showVcm.word a = c.word a := by
  simp [Chip.showVcm, Chip.setBit, Chip.word_set_other, hstatus, htarget]

theorem Chip.exitResetHold_of_good {c : Chip} (straps : Nat) (hdev : c.dev = .resetHold) (hgood : c.aon.powerGood = true)
    (hlatch : c.aon.otpLatch = false) : c.exitResetHold straps = (c.leaveReset straps).showVcm := by
  simp [Chip.exitResetHold, hdev, hgood, hlatch]

/-- R120: a register that the always-on island keeps, but for RESET_CAUSE. -/
theorem Chip.word_exit_kept (c : Chip) (straps : Nat) {a : Nat}
    (h : a ∈ [A.FLT_STOP, A.PRIV_STATUS, A.PRIV_CFG, A.PRIV_EVENTS]) :
    (c.leaveReset straps).showVcm.word a = c.word a := by
  have hkept : a ∈ aonRegs := List.mem_cons_of_mem _ h
  have hapart : ∀ b ∈ [A.FLT_STOP, A.PRIV_STATUS, A.PRIV_CFG, A.PRIV_EVENTS],
      b ≠ A.VCM_STATUS ∧ b ≠ A.VCM_TARGET_FORCE ∧ b ≠ A.STRAPS ∧ b ≠ A.RESET_CAUSE := by decide
  obtain ⟨hstatus, htarget, hstraps, hcause⟩ := hapart a h
  rw [Chip.word_showVcm _ hstatus htarget, Chip.word_leaveReset, if_neg hstraps, if_neg hcause, if_pos hkept]

theorem Chip.word_exit_straps (c : Chip) (straps : Nat) :
    (c.leaveReset straps).showVcm.word A.STRAPS = Word.of (straps % 8) := by
  rw [Chip.word_showVcm _ (by decide) (by decide), Chip.word_leaveReset, if_pos rfl]

theorem Chip.word_exit_resetCause (c : Chip) (straps : Nat) :
    (c.leaveReset straps).showVcm.word A.RESET_CAUSE = c.word A.RESET_CAUSE ||| Word.of c.aon.causes := by
  rw [Chip.word_showVcm _ (by decide) (by decide), Chip.word_leaveReset, if_neg (by decide), if_pos rfl]

/-- R659: every register but those sampled, kept, or showing a ramp that still runs. -/
theorem Chip.word_exit_reset (c : Chip) (straps : Nat) {a : Nat}
    (h : a ∉ [A.STRAPS, A.RESET_CAUSE, A.FLT_STOP, A.PRIV_STATUS, A.PRIV_CFG, A.PRIV_EVENTS, A.VCM_STATUS,
      A.VCM_TARGET_FORCE]) : (c.leaveReset straps).showVcm.word a = resetWord a := by
  simp only [List.mem_cons, List.not_mem_nil, or_false, not_or] at h
  obtain ⟨hstraps, hcause, hstop, hstatus, hcfg, hevents, hvcm, hforce⟩ := h
  have hkept : a ∉ aonRegs := by simp [aonRegs, hcause, hstop, hstatus, hcfg, hevents]
  rw [Chip.word_showVcm _ hvcm hforce, Chip.word_leaveReset, if_neg hstraps, if_neg hcause, if_neg hkept]

end Sys2Proof.Machine

namespace Sys2Proof
open Machine

theorem completes_exitResetHold {s : State} {post : Chip → Prop} {straps : Nat} (hstraps : straps < 8)
    (h : post (s.chip.exitResetHold straps)) : Completes (.exitResetHold straps) s post :=
  completes_of_act (fun _ c => c.exitResetHold straps) rfl (by simpa [Instr.wf] using hstraps) h

/-- Settles O9: the registers by their words at the exit, everything else by the equation of `Chip.leaveReset`. -/
theorem exitFromResetHoldRestoresResetValues : Obligations.ExitFromResetHoldRestoresResetValues := by
  intro s straps hstraps hdev hgood hlatch
  refine completes_exitResetHold hstraps ?_
  rw [Chip.exitResetHold_of_good straps hdev hgood hlatch]
  have hkept {a : Nat} := Chip.word_exit_kept s.chip straps (a := a)
  refine ⟨?dev, ?straps, Chip.word_exit_resetCause s.chip straps, ?causes, hkept (by simp), hkept (by simp), hkept (by simp),
    hkept (by simp), fun a ha => Chip.word_exit_reset s.chip straps ha, ?volatile⟩
  case straps => rw [Chip.word_exit_straps, Nat.mod_eq_of_lt hstraps]
  case dev | causes | volatile => simp [Chip.leaveReset]

end Sys2Proof
end

section
/-!
PROOFS. The signal balls (O18).
-/
namespace Sys2Proof.Machine

/-! ### From the ball's own state to the ball -/

/-- R44: a pad that is not driven up stands as R45 says, whatever VDDIO does. -/
theorem Chip.ball_of_not_drivesUp {c : Chip} {b : Ball} (h : (c.ballState b).drivesUp = false) : c.ball b = c.ballState b := by
  simp [Chip.ball, h]

theorem Chip.ball_eq_of_ballState {c : Chip} {b : Ball} {p : PadState} (h : c.ballState b = p) (hp : p.drivesUp = false) :
    c.ball b = p := by
  rw [Chip.ball_of_not_drivesUp (by rw [h, hp]), h]

/-- R44: a ball driven up is driven up by R45, and VDDIO holds or does not supply it. -/
theorem Chip.ballState_of_ball_drivesUp {c : Chip} {b : Ball} (h : (c.ball b).drivesUp = true) :
    (c.ballState b).drivesUp = true ∧ (b.standsAlone = false → 1710 ≤ (c.rail 2).mv) := by
  unfold Chip.ball at h
  split at h
  · exact absurd h (by simp [PadState.drivesUp])
  · rename_i hholds
    exact ⟨h, fun hsup => Nat.le_of_not_lt fun hlow => hholds ⟨hlow, hsup, h⟩⟩

/-! ### OFF, RESET_HOLD and SENSE (R45, R46) -/

/-- The columns in which no ball is driven up. -/
def PadColumn.quiet (col : PadColumn) : Prop := col = .off ∨ col = .reset

theorem PadColumn.lane_of_quiet {col : PadColumn} (h : col.quiet) : col.lane = .z := by
  rcases h with rfl | rfl <;> rfl

theorem Chip.dataLane_of_quiet {c : Chip} (h : c.dev.column.quiet) (k : Nat) : c.dataLane k = .z := by
  simp [Chip.dataLane, PadColumn.lane_of_quiet h]

theorem Chip.clockLane_of_quiet {c : Chip} (h : c.dev.column.quiet) : c.clockLane = .z := by
  simp [Chip.clockLane, PadColumn.lane_of_quiet h]

theorem PadColumn.port_drivesUp (col : PadColumn) : col.port.drivesUp = false := by cases col <;> rfl

theorem PadColumn.operating_drivesUp (col : PadColumn) : col.operating.drivesUp = false := by cases col <;> rfl

/-- R45, R46: driven low, an input, or at Z, whatever the ball. -/
theorem Chip.ballState_of_quiet {c : Chip} (h : c.dev.column.quiet) (b : Ball) : (c.ballState b).drivesUp = false := by
  have hcol : c.dev.column = .off ∨ c.dev.column = .reset := h
  cases b
  case csiData k => simp [Chip.ballState, Chip.dataLane_of_quiet h, PadState.drivesUp]
  case csiClock => simp [Chip.ballState, Chip.clockLane_of_quiet h, PadState.drivesUp]
  case xspiCsN | xspiCk => simp only [Chip.ballState, PadColumn.port_drivesUp]
  case fsyncIn | trig => simp only [Chip.ballState, PadColumn.operating_drivesUp]
  case i3cScl =>
    simp only [Chip.ballState]
    split
    · rfl
    · exact PadColumn.port_drivesUp _
  case nfault | vcmP | vcmN => simp only [Chip.ballState]; split <;> rfl
  case iref | vrefDec => rcases hcol with hcol | hcol <;> simp only [Chip.ballState, hcol] <;> split <;> rfl
  all_goals rcases hcol with hcol | hcol <;> simp [Chip.ballState, hcol, PadColumn.port, PadState.drivesUp]

/-- R49: a data lane beyond the lane count in force, unless outputs use it. -/
theorem Chip.ball_csiData_unused {c : Chip} {k : Nat} (hfloor : c.host.laneFloor ≤ k)
    (hunused : c.fld F.CSI_STATUS.STATE = 0 ∨ c.fld F.CSI_STATUS.LANES ≤ k) : c.ball (.csiData k) = .z := by
  refine Chip.ball_eq_of_ballState ?_ rfl
  rcases hunused with hstop | hlanes
  · simp [Chip.ballState, Chip.dataLane, hfloor, hstop]
  · simp [Chip.ballState, Chip.dataLane, hfloor, Nat.not_lt.mpr hlanes]

theorem Chip.ball_nfault (c : Chip) : c.ball .nfault = if c.nfaultLow then .low else .z := by
  refine Chip.ball_eq_of_ballState rfl ?_
  split <;> rfl

/-- A device that is on and whose tick does not run stands in one of three columns. -/
theorem DevState.column_of_idle {d : DevState} (hoff : d ≠ .off) (hidle : d.ticking = false) :
    d.column = .reset ∨ d.column = .startUp ∨ d.column = .hold := by
  revert hoff hidle
  cases d <;> decide

/-- R48: FSYNC_OUT and STROBE stand low while the island runs and no tick does. -/
theorem Chip.ball_pulse_idle {c : Chip} {b : Ball} (hb : b = .fsyncOut ∨ b = .strobe) (hoff : c.dev ≠ .off)
    (hidle : c.dev.ticking = false) : c.ball b = .low := by
  refine Chip.ball_eq_of_ballState ?_ rfl
  rcases hb with rfl | rfl <;> rcases DevState.column_of_idle hoff hidle with hcol | hcol | hcol <;>
    simp only [Chip.ballState, hcol]

/-- R50: the balls that a reset puts at Z. -/
def Ball.zInReset (b : Ball) : Prop :=
  b ∈ [Ball.csiClock, .xspiDs, .i3cSda, .bfCsN, .bfSck] ∨ ∃ k, b = .csiData k ∨ b = .xspiIo k ∨ b = .bfIo k

theorem Chip.ball_zInReset {c : Chip} (hcol : c.dev.column = .reset) {b : Ball} (hb : b.zInReset) : c.ball b = .z := by
  have hquiet : c.dev.column.quiet := .inr hcol
  refine Chip.ball_eq_of_ballState ?_ rfl
  rcases hb with hb | ⟨k, rfl | rfl | rfl⟩
  · simp only [List.mem_cons, List.not_mem_nil, or_false] at hb
    rcases hb with rfl | rfl | rfl | rfl | rfl
    · exact Chip.clockLane_of_quiet hquiet
    all_goals simp [Chip.ballState, hcol, PadColumn.port]
  · exact Chip.dataLane_of_quiet hquiet k
  · simp [Chip.ballState, hcol]
  · simp [Chip.ballState, hcol]

theorem Chip.nfaultLow_resetHold {c : Chip} (h : c.dev = .resetHold) : c.nfaultLow = true := by simp [Chip.nfaultLow, h]

end Sys2Proof.Machine

namespace Sys2Proof
open Machine

theorem completes_nresetLow {s : State} {post : Chip → Prop} {w : Nat} (h : post (s.chip.nresetLow w)) :
    Completes (.nresetLow w) s post := completes_of_act (fun _ c => c.nresetLow w) rfl rfl h

/-- Settles O18: by the ball's own state under R44 (`Chip.ball_eq_of_ballState`), and for the reset by RESET_HOLD's column. -/
theorem ballsStandAsTheTableSays : Obligations.BallsStandAsTheTableSays := by
  refine ⟨fun c b hup => ?up, fun c k => Chip.ball_csiData_unused, fun c b => Chip.ball_pulse_idle, Chip.ball_nfault,
    fun s w hoff hreset hw => completes_nresetLow ?reset⟩
  case up =>
    obtain ⟨hstate, hio⟩ := Chip.ballState_of_ball_drivesUp hup
    have hnot : ¬ c.dev.column.quiet := fun hquiet => by simp [Chip.ballState_of_quiet hquiet b] at hstate
    refine ⟨fun h => hnot ?_, fun h => hnot ?_, fun h => hnot ?_, hio⟩ <;> simp [PadColumn.quiet, DevState.column, h]
  case reset =>
    rw [Chip.nresetLow_long hw, Chip.resetTo_of_running hoff hreset]
    have hdev := Chip.dev_enterReset s.chip 2
    generalize s.chip.enterReset 2 = c at hdev
    have hcol : c.dev.column = .reset := by rw [hdev]; rfl
    have hpulse {b : Ball} (hb : b = .fsyncOut ∨ b = .strobe) : c.ball b = .low :=
      Chip.ball_pulse_idle hb (by simp [hdev]) (by simp [hdev, DevState.ticking])
    refine ⟨fun b hb => Chip.ball_zInReset hcol hb, ?_, hpulse (.inl rfl), hpulse (.inr rfl)⟩
    rw [Chip.ball_nfault, Chip.nfaultLow_resetHold hdev, if_pos rfl]

end Sys2Proof
end

section
/-!
PROOFS. The lens driver's commands (O45): what each shared operation of the driver leaves, then one rule per command.
-/
namespace Sys2Proof.Machine

/-! ### What the driver's registers show -/

/-- The fields that follow the driver (R516). -/
abbrev vcmShown : List Fld :=
  [F.VCM_STATUS.CODE, F.VCM_STATUS.SUPPLY_OK, F.VCM_STATUS.HANDOVER, F.VCM_STATUS.RAMPING, F.VCM_STATUS.RANGE,
   F.VCM_STATUS.DRIVING, F.VCM_TARGET_FORCE.UA]

@[simp] theorem Chip.loop_setVcm (c : Chip) (v : Vcm) : (c.setVcm v).loop = { c.loop with vcm := v } := by
  simp only [Chip.setVcm, Chip.loop_showVcm]

theorem fieldsBut_setVcm (c : Chip) (v : Vcm) : FieldsBut vcmShown c (c.setVcm v) :=
  FieldsBut.showVcm { c with loop := { c.loop with vcm := v } }

theorem Chip.fld_setVcm (c : Chip) (v : Vcm) {f : Fld} (h : ∀ g ∈ vcmShown, g.apart f = true) :
    (c.setVcm v).fld f = c.fld f := fieldsBut_setVcm c v f h

/-- A one-bit field that has been put reads its flag. -/
theorem Chip.fld_setBit_same (c : Chip) {f : Fld} (b : Bool) (hw : f.w = 1) (h : f.lo + 1 ≤ 32) :
    (c.setBit f b).fld f = b.toNat := by
  rw [Chip.setBit, Chip.fld_set_same c f _ (by omega), hw]
  cases b <;> rfl

theorem Chip.fld_raise_same (c : Chip) {f : Fld} (hw : f.w = 1) (h : f.lo + 1 ≤ 32) : (c.raise f).fld f = 1 :=
  Chip.fld_setBit_same c true hw h

theorem Chip.fld_setVcm_driving (c : Chip) (v : Vcm) :
    (c.setVcm v).fld F.VCM_STATUS.DRIVING = (v.bridge != .z).toNat := by
  simp only [Chip.setVcm, Chip.showVcm]
  rw [Chip.fld_set_apart _ _ (by decide), Chip.fld_setBit_same _ _ rfl (by decide)]

/-! ### A target is converted (R501) -/

/-- All that a conversion can do: nothing, or raise TARGET_CLAMP. -/
theorem Chip.vcmConvert_cases (c : Chip) : c.vcmConvert = c ∨ c.vcmConvert = c.raise F.LOOP_EVENTS.TARGET_CLAMP := by
  unfold Chip.vcmConvert
  split
  · exact .inr rfl
  · exact .inl rfl

@[simp] theorem Chip.loop_vcmConvert (c : Chip) : c.vcmConvert.loop = c.loop := by
  rcases c.vcmConvert_cases with h | h <;> rw [h]
  rfl

@[simp] theorem Chip.mem_vcmConvert (c : Chip) : c.vcmConvert.mem = c.mem := by
  rcases c.vcmConvert_cases with h | h <;> rw [h]
  rfl

theorem fieldsBut_vcmConvert (c : Chip) : FieldsBut [F.LOOP_EVENTS.TARGET_CLAMP] c c.vcmConvert := by
  rcases c.vcmConvert_cases with h | h <;> rw [h]
  · exact FieldsBut.refl _ c
  · exact (FieldsBut.refl _ c).raise (by simp)

/-! ### What a command of the driver leaves -/

/-- The loop's waiting sets, the memories, and every field but `fs` and those that follow the driver. -/
def LensFrame (fs : List Fld) (c d : Chip) : Prop :=
  d.loop.waiting = c.loop.waiting ∧ d.mem = c.mem ∧ FieldsBut (fs ++ vcmShown) c d

section
variable {fs : List Fld} {c d : Chip}

theorem LensFrame.refl (fs : List Fld) (c : Chip) : LensFrame fs c c := ⟨rfl, rfl, FieldsBut.refl _ c⟩

theorem LensFrame.set (h : LensFrame fs c d) {f : Fld} (x : Nat) (hf : f ∈ fs) : LensFrame fs c (d.set f x) := by
  obtain ⟨hwaiting, hmem, hfields⟩ := h
  exact ⟨hwaiting, hmem, hfields.set x (List.mem_append_left _ hf)⟩

theorem LensFrame.setVcm (h : LensFrame fs c d) (v : Vcm) : LensFrame fs c (d.setVcm v) := by
  obtain ⟨hwaiting, hmem, hfields⟩ := h
  refine ⟨by simpa using hwaiting, by simpa using hmem, hfields.trans ?_⟩
  exact (fieldsBut_setVcm d v).mono (List.subset_append_right _ _)

theorem LensFrame.vcmConvert (h : LensFrame fs c d) (hf : F.LOOP_EVENTS.TARGET_CLAMP ∈ fs) : LensFrame fs c d.vcmConvert := by
  obtain ⟨hwaiting, hmem, hfields⟩ := h
  refine ⟨by simpa using hwaiting, by simpa using hmem, hfields.trans ?_⟩
  exact (fieldsBut_vcmConvert d).mono (by simp [hf])

end

/-! ### ENABLE (R503) -/

@[simp] theorem Chip.loop_vcmDrive (c : Chip) : c.vcmDrive.loop = { c.loop with
    vcm := { c.loop.vcm with bridge := .driving, pos := 0, coarse := c.bit F.VCM_CTRL.RANGE, handover := false,
                             waiting := false, used := true } } := by
  simp [Chip.vcmDrive]

theorem Chip.fld_vcmDrive_driving (c : Chip) : c.vcmDrive.fld F.VCM_STATUS.DRIVING = 1 := by
  rw [Chip.vcmDrive, fieldsBut_vcmConvert _ _ (by decide), Chip.fld_setVcm_driving]
  rfl

theorem LensFrame.vcmDrive {fs : List Fld} {c d : Chip} (h : LensFrame fs c d) (hf : F.LOOP_EVENTS.TARGET_CLAMP ∈ fs) :
    LensFrame fs c d.vcmDrive := (h.setVcm _).vcmConvert hf

theorem DevState.open_of_ticking {d : DevState} (h : d.ticking = true) : d.open = true := by
  revert h
  cases d <;> decide

theorem Chip.vcmEnable_of_z {c : Chip} (htick : c.dev.ticking = true) (hsupply : c.loop.vcm.supplyOk = true)
    (hz : c.loop.vcm.bridge = .z) : c.vcmEnable = (c.raise F.VCM_CTRL.ENABLE).vcmDrive := by
  simp [Chip.vcmEnable, DevState.open_of_ticking htick, htick, hsupply, hz]

/-- A refused enable, whether the register is acted on or not (log entry 119). -/
theorem Chip.vcmEnable_refused {c : Chip} (hports : c.dev.portsAnswer = true)
    (hno : c.dev.ticking = false ∨ c.loop.vcm.supplyOk = false) :
    c.vcmEnable = c.vcmRefuse ∨ c.vcmEnable = (c.raise F.VCM_CTRL.ENABLE).vcmRefuse := by
  have hrun : (c.dev.ticking && c.loop.vcm.supplyOk) = false := by rcases hno with h | h <;> simp [h]
  cases hopen : c.dev.open
  · exact .inl (by simp [Chip.vcmEnable, hopen, hports])
  · exact .inr (by simp only [Chip.vcmEnable, hopen, Chip.dev_raise, Chip.loop_raise, hrun]; rfl)

theorem Chip.vcmRefuse_spec (c : Chip) : c.vcmRefuse.loop = c.loop ∧ c.vcmRefuse.fld F.LOOP_EVENTS.ENABLE_REJECTED = 1 ∧
    Logged Code.VCM_ENABLE_REJECT noUnit c.vcmRefuse := by
  refine ⟨by simp [Chip.vcmRefuse], ?_, logged_alert _ _ _ _⟩
  rw [Chip.vcmRefuse, FieldsBut.alert (FieldsBut.refl _ _) _ _ _ (List.Subset.refl _) _ (by decide)]
  exact Chip.fld_raise_same c rfl (by decide)

/-! ### DISABLE and a change of range (R504, R505) -/

theorem Chip.vcmDisable_of_driving {c : Chip} (hopen : c.dev.open = true) (hdrive : c.loop.vcm.bridge = .driving) :
    c.vcmDisable = ((c.set F.VCM_CTRL.ENABLE 0).set F.VCM_STATUS.Z_CAUSE 1).setVcm
      { c.loop.vcm with bridge := .rampOff 1, handover := false } := by
  simp [Chip.vcmDisable, hopen, hdrive]

theorem Chip.vcmRangeWrite_of_host {c : Chip} (coarse : Bool) (hopen : c.dev.open = true)
    (howner : c.fld F.LOOP_STATUS.VCM_OWNER = 0) : c.vcmRangeWrite coarse = c.vcmRangeRequest coarse := by
  simp [Chip.vcmRangeWrite, Chip.bit, hopen, howner]

/-- FINE to COARSE: the current is kept to the nearest code, and a handover starts. -/
theorem Chip.vcmRangeRequest_coarse {c : Chip} (hdrive : c.loop.vcm.bridge = .driving) (hfine : c.loop.vcm.coarse = false) :
    c.vcmRangeRequest true = (c.setBit F.VCM_CTRL.RANGE true).setVcm
      { c.loop.vcm with coarse := true, handover := true,
                        pos := clampInt (-32768) 32767 (rne (c.loop.vcm.code * 60000) 150000) * 150000 } := by
  simp [Chip.vcmRangeRequest, hdrive, hfine, fullScale]

/-- COARSE to FINE with a current that FINE cannot carry. -/
theorem Chip.vcmRangeRequest_rejected {c : Chip} (hdrive : c.loop.vcm.bridge = .driving) (hcoarse : c.loop.vcm.coarse = true)
    (hwide : withinFine (c.loop.vcm.code * 150000) = false) :
    c.vcmRangeRequest false = ((c.setBit F.VCM_CTRL.RANGE false).raise F.LOOP_EVENTS.RANGE_REJECT).alertOnce
      Code.VCM_RANGE_REJECT noUnit 0 := by
  simp [Chip.vcmRangeRequest, hdrive, hcoarse, fullScale, hwide]

theorem fieldsBut_alertOnce (c : Chip) (code unit detail : Nat) : FieldsBut logFields c (c.alertOnce code unit detail) := by
  unfold Chip.alertOnce
  split
  · exact FieldsBut.refl _ c
  · exact FieldsBut.record { c with once := (code, unit) :: c.once } false code unit detail

/-! ### A target (R504) -/

theorem signedOf_mod (w n : Nat) : signedOf w (n % 2 ^ w) = signedOf w n := by simp only [signedOf, Nat.mod_mod]

/-- Two's complement: a number in range is read back from its pattern. -/
theorem signedOf_patternOf {w : Nat} {i : Int} (hw : 0 < w) (hlo : -2 ^ (w - 1) ≤ i) (hhi : i < 2 ^ (w - 1)) :
    signedOf w (patternOf w i) = i := by
  obtain ⟨k, rfl⟩ : ∃ k, w = k + 1 := ⟨w - 1, by omega⟩
  have hdouble : (2 : Nat) ^ (k + 1) = 2 * 2 ^ k := by rw [Nat.pow_succ, Nat.mul_comm]
  have hcast : (2 : Int) ^ k = ((2 ^ k : Nat) : Int) := by norm_cast
  simp only [Nat.add_sub_cancel, hcast] at hlo hhi
  simp only [signedOf, patternOf, Nat.add_sub_cancel, hdouble, Int.ofNat_eq_natCast]
  generalize 2 ^ k = p at hlo hhi ⊢
  rcases Int.lt_or_le i 0 with hneg | hpos
  · have hmod : i % ((2 * p : Nat) : Int) = i + 2 * p := by
      rw [← Int.add_emod_right, Int.emod_eq_of_lt] <;> push_cast <;> omega
    rw [hmod, Nat.mod_eq_of_lt (by omega), if_neg (by omega)]
    omega
  · have hmod : i % ((2 * p : Nat) : Int) = i := Int.emod_eq_of_lt hpos (by push_cast; omega)
    rw [hmod, Nat.mod_eq_of_lt (by omega), if_pos (by omega)]
    omega

theorem Chip.sfld_set_same (c : Chip) (f : Fld) (i : Int) (hf : f.lo + f.w ≤ 32) (hw : 0 < f.w)
    (hlo : -2 ^ (f.w - 1) ≤ i) (hhi : i < 2 ^ (f.w - 1)) : (c.set f (patternOf f.w i)).sfld f = i := by
  rw [Chip.sfld, Chip.fld_set_same _ _ _ hf, signedOf_mod, signedOf_patternOf hw hlo hhi]

/-- All that a write of VCM_TARGET can do where it is acted on. -/
theorem Chip.vcmTargetWrite_cases {c : Chip} (ua : Int) (hopen : c.dev.open = true) :
    c.vcmTargetWrite ua = c.set F.VCM_TARGET.UA (patternOf 24 ua) ∨
      c.vcmTargetWrite ua = ((c.set F.VCM_TARGET.UA (patternOf 24 ua)).setVcm c.loop.vcm).vcmConvert := by
  simp only [Chip.vcmTargetWrite, hopen, ↓reduceIte, Chip.loop_set]
  split
  · exact .inl rfl
  · exact .inr rfl

/-! ### An update moves the position (R504) -/

theorem approach_up {pos goal d : Int} (h : goal ≤ pos + d) (hup : pos ≤ goal) : approach pos goal d = goal := by
  unfold approach
  split <;> omega

theorem approach_down {pos goal d : Int} (h : goal ≤ pos) (hdown : pos ≤ goal + d) : approach pos goal d = goal := by
  unfold approach
  split <;> omega

theorem approach_far_up {pos goal d : Int} (hd : 0 ≤ d) (h : pos + d < goal) : approach pos goal d = pos + d := by
  unfold approach
  split <;> omega

theorem approach_far_down {pos goal d : Int} (hd : 0 ≤ d) (h : goal + d < pos) : approach pos goal d = pos - d := by
  unfold approach
  split <;> omega

theorem Chip.slewStep_nonneg (c : Chip) : 0 ≤ c.slewStep :=
  Int.mul_nonneg (Int.natCast_nonneg _) (by decide)

theorem Chip.vcmUpdate_of_driving {c : Chip} (hdrive : c.loop.vcm.bridge = .driving) (hhand : c.loop.vcm.handover = false) :
    c.vcmUpdate = c.setVcm { c.loop.vcm with
      pos := approach c.loop.vcm.pos (dacCode c.loop.vcm.coarse c.vcmTarget * fullScale c.loop.vcm.coarse) c.slewStep } := by
  simp [Chip.vcmUpdate, hdrive, hhand]

/-! ### The bridge goes to Z (R502, R506) -/

/-- The bridge is at Z, and the registers say so and name the cause. -/
def InZ (cause : Nat) (c : Chip) : Prop :=
  c.loop.vcm.bridge = .z ∧ c.loop.vcm.pos = 0 ∧ c.fld F.VCM_STATUS.Z_CAUSE = cause ∧ c.fld F.VCM_STATUS.DRIVING = 0

@[simp] theorem Chip.vcm_vcmZ (c : Chip) (cause : Nat) : (c.vcmZ cause).loop.vcm =
    { c.loop.vcm with bridge := .z, pos := 0, target := 0, handover := false, waiting := false } := by
  simp [Chip.vcmZ]

theorem inZ_vcmZ {c : Chip} {cause : Nat} (hdrive : c.loop.vcm.bridge = .driving) (hcause : cause < 8) :
    InZ cause (c.vcmZ cause) := by
  refine ⟨by simp, by simp, ?_, Chip.fld_setVcm_driving _ _⟩
  simp only [Chip.vcmZ, hdrive, ↓reduceIte]
  rw [Chip.fld_setVcm _ _ (by decide), Chip.fld_set_same _ _ _ (by decide)]
  exact Nat.mod_eq_of_lt hcause

theorem InZ.alert {cause : Nat} {c : Chip} (h : InZ cause c) (code unit detail : Nat) : InZ cause (c.alert code unit detail) := by
  have hfields : FieldsBut logFields c (c.alert code unit detail) := FieldsBut.record c false code unit detail
  obtain ⟨hbridge, hpos, hcause, hdriving⟩ := h
  refine ⟨by simpa using hbridge, by simpa using hpos, ?_, ?_⟩
  · rw [hfields _ (by decide), hcause]
  · rw [hfields _ (by decide), hdriving]

theorem Chip.vcmTrack_of_driving {c : Chip} (hdrive : c.loop.vcm.bridge = .driving) (hhand : c.loop.vcm.handover = false) :
    c.vcmTrack = (c.vcmZ 5).alert Code.VCM_TRACK noUnit 0 := by
  simp [Chip.vcmTrack, hdrive, hhand]

theorem Chip.vcmOvercurrent_of_driving {c : Chip} (hdrive : c.loop.vcm.bridge = .driving) :
    c.vcmOvercurrent = (c.vcmZ 6).alert Code.VCM_TRACK noUnit 0 := by
  simp [Chip.vcmOvercurrent, hdrive]

/-- R53, R506: VDDVCM falls while the bridge drives. -/
theorem Chip.vddvcmFalls_spec {c : Chip} (fell : Bool) (hdrive : c.loop.vcm.bridge = .driving) :
    InZ 4 (c.vddvcmFalls fell) ∧ (c.vddvcmFalls fell).loop.vcm.supplyOk = false ∧
      (c.loop.vcm.used = true → fell = true → Logged Code.VCM_SUPPLY noUnit (c.vddvcmFalls fell)) := by
  have hz : InZ 4 ({ c with loop := { c.loop with vcm := { c.loop.vcm with supplyOk := false } } }.vcmZ 4) :=
    inZ_vcmZ hdrive (by decide)
  simp only [Chip.vddvcmFalls, Chip.vcm_vcmZ]
  split
  · exact ⟨hz.alert _ _ _, by simp, fun _ _ => logged_alert _ _ _ _⟩
  · rename_i hquiet
    refine ⟨hz, by simp, fun hused hfell => absurd ?_ hquiet⟩
    simp [hused, hfell]

/-! ### The end of a handover and of a hardware ramp (R505, R51, R148) -/

theorem Chip.handoverEnd_of_handover {c : Chip} (h : c.loop.vcm.handover = true) :
    c.handoverEnd = (c.setVcm { c.loop.vcm with handover := false }).vcmConvert := by
  simp [Chip.handoverEnd, h]

theorem Chip.vcmRampEnd_of_ramp {c : Chip} (h : c.loop.vcm.bridge = .rampOff 2 ∨ c.loop.vcm.bridge = .rampOff 3) :
    c.vcmRampEnd = c.vcmRampDone := by
  rcases h with h | h <;> simp [Chip.vcmRampEnd, h]

theorem Chip.vcmRampDone_spec (c : Chip) : c.vcmRampDone.loop.vcm.pos = 0 ∧ c.vcmRampDone.loop.vcm.bridge =
    if c.loop.vcm.waiting = true ∧ c.dev.ticking = true ∧ c.loop.vcm.supplyOk = true then .driving else .z := by
  simp only [Chip.vcmRampDone, Chip.dev_setVcm, Bool.and_eq_true, and_assoc]
  split <;> simp

/-! ### One rule per command, over the chip -/

theorem Chip.vcmEnable_of_z_spec {c : Chip} (htick : c.dev.ticking = true) (hsupply : c.loop.vcm.supplyOk = true)
    (hz : c.loop.vcm.bridge = .z) :
    c.vcmEnable.loop.vcm.bridge = .driving ∧ c.vcmEnable.loop.vcm.pos = 0 ∧
      c.vcmEnable.loop.vcm.coarse = c.bit F.VCM_CTRL.RANGE ∧ c.vcmEnable.fld F.VCM_CTRL.ENABLE = 1 ∧
      c.vcmEnable.fld F.VCM_STATUS.DRIVING = 1 ∧
      LensFrame [F.VCM_CTRL.ENABLE, F.LOOP_EVENTS.TARGET_CLAMP] c c.vcmEnable := by
  rw [Chip.vcmEnable_of_z htick hsupply hz]
  have hdrive := (LensFrame.refl [F.LOOP_EVENTS.TARGET_CLAMP] (c.raise F.VCM_CTRL.ENABLE)).vcmDrive (by simp)
  obtain ⟨-, -, hfields⟩ := hdrive
  refine ⟨by simp, by simp, ?range, ?enable, Chip.fld_vcmDrive_driving _, ?frame⟩
  case range =>
    have hkept : (c.raise F.VCM_CTRL.ENABLE).fld F.VCM_CTRL.RANGE = c.fld F.VCM_CTRL.RANGE :=
      Chip.fld_set_apart c 1 (by decide)
    simp only [Chip.loop_vcmDrive, Chip.bit, hkept]
  case enable => rw [hfields _ (by decide), Chip.fld_raise_same _ rfl (by decide)]
  case frame => exact ((LensFrame.refl _ c).set 1 (by simp)).vcmDrive (by simp)

theorem Chip.vcmEnable_refused_spec {c : Chip} (hports : c.dev.portsAnswer = true)
    (hno : c.dev.ticking = false ∨ c.loop.vcm.supplyOk = false) :
    c.vcmEnable.loop = c.loop ∧ c.vcmEnable.fld F.LOOP_EVENTS.ENABLE_REJECTED = 1 ∧
      Logged Code.VCM_ENABLE_REJECT noUnit c.vcmEnable := by
  rcases Chip.vcmEnable_refused hports hno with h | h <;> rw [h] <;> exact Chip.vcmRefuse_spec _

theorem Chip.vcmDisable_of_driving_spec {c : Chip} (hopen : c.dev.open = true) (hdrive : c.loop.vcm.bridge = .driving) :
    c.vcmDisable.loop.vcm = { c.loop.vcm with bridge := .rampOff 1, handover := false } ∧
      c.vcmDisable.fld F.VCM_STATUS.Z_CAUSE = 1 ∧ c.vcmDisable.fld F.VCM_CTRL.ENABLE = 0 ∧
      LensFrame [F.VCM_CTRL.ENABLE, F.VCM_STATUS.Z_CAUSE] c c.vcmDisable := by
  rw [Chip.vcmDisable_of_driving hopen hdrive]
  refine ⟨by simp, ?cause, ?enable, (((LensFrame.refl _ c).set 0 (by simp)).set 1 (by simp)).setVcm _⟩
  case cause => rw [Chip.fld_setVcm _ _ (by decide), Chip.fld_set_same _ _ _ (by decide)]; rfl
  case enable =>
    rw [Chip.fld_setVcm _ _ (by decide), Chip.fld_set_apart _ _ (by decide), Chip.fld_set_same _ _ _ (by decide)]
    rfl

theorem Chip.vcmRange_coarse_spec {c : Chip} (hopen : c.dev.open = true) (howner : c.fld F.LOOP_STATUS.VCM_OWNER = 0)
    (hdrive : c.loop.vcm.bridge = .driving) (hfine : c.loop.vcm.coarse = false) :
    (c.vcmRangeWrite true).loop.vcm = { c.loop.vcm with
        coarse := true, handover := true
        pos := clampInt (-32768) 32767 (rne (c.loop.vcm.code * 60000) 150000) * 150000 } ∧
      (c.vcmRangeWrite true).fld F.VCM_CTRL.RANGE = 1 ∧ LensFrame [F.VCM_CTRL.RANGE] c (c.vcmRangeWrite true) := by
  rw [Chip.vcmRangeWrite_of_host true hopen howner, Chip.vcmRangeRequest_coarse hdrive hfine]
  refine ⟨by simp, ?range, ((LensFrame.refl _ c).set 1 (by simp)).setVcm _⟩
  case range => rw [Chip.fld_setVcm _ _ (by decide), Chip.fld_setBit_same _ _ rfl (by decide)]; rfl

theorem Chip.vcmRange_rejected_spec {c : Chip} (hopen : c.dev.open = true) (howner : c.fld F.LOOP_STATUS.VCM_OWNER = 0)
    (hdrive : c.loop.vcm.bridge = .driving) (hcoarse : c.loop.vcm.coarse = true)
    (hwide : withinFine (c.loop.vcm.code * 150000) = false) :
    (c.vcmRangeWrite false).loop = c.loop ∧ (c.vcmRangeWrite false).fld F.VCM_CTRL.RANGE = 0 ∧
      (c.vcmRangeWrite false).fld F.LOOP_EVENTS.RANGE_REJECT = 1 := by
  rw [Chip.vcmRangeWrite_of_host false hopen howner, Chip.vcmRangeRequest_rejected hdrive hcoarse hwide]
  refine ⟨by simp, ?range, ?reject⟩
  case range =>
    rw [fieldsBut_alertOnce _ _ _ _ _ (by decide), Chip.raise, Chip.fld_set_apart _ _ (by decide),
      Chip.fld_setBit_same _ _ rfl (by decide)]
    rfl
  case reject => rw [fieldsBut_alertOnce _ _ _ _ _ (by decide), Chip.fld_raise_same _ rfl (by decide)]

theorem Chip.vcmTargetWrite_spec {c : Chip} {ua : Int} (hopen : c.dev.open = true) (hlo : -8388608 ≤ ua) (hhi : ua < 8388608) :
    (c.vcmTargetWrite ua).sfld F.VCM_TARGET.UA = ua ∧ (c.vcmTargetWrite ua).loop = c.loop ∧
      LensFrame [F.VCM_TARGET.UA, F.LOOP_EVENTS.TARGET_CLAMP] c (c.vcmTargetWrite ua) := by
  have hput : (c.set F.VCM_TARGET.UA (patternOf 24 ua)).sfld F.VCM_TARGET.UA = ua :=
    Chip.sfld_set_same c F.VCM_TARGET.UA ua (by decide) (by decide) hlo hhi
  have hframe := (LensFrame.refl [F.VCM_TARGET.UA, F.LOOP_EVENTS.TARGET_CLAMP] c).set (f := F.VCM_TARGET.UA)
    (patternOf 24 ua) (by simp)
  rcases Chip.vcmTargetWrite_cases ua hopen with h | h <;> rw [h]
  · exact ⟨hput, rfl, hframe⟩
  · refine ⟨?_, by simp, (hframe.setVcm _).vcmConvert (by simp)⟩
    rw [Chip.sfld, fieldsBut_vcmConvert _ _ (by decide), Chip.fld_setVcm _ _ (by decide)]
    exact hput

theorem Chip.vcmUpdate_spec {c : Chip} (hdrive : c.loop.vcm.bridge = .driving) (hhand : c.loop.vcm.handover = false) :
    c.vcmUpdate.loop.vcm.pos = approach c.loop.vcm.pos
        (dacCode c.loop.vcm.coarse c.vcmTarget * fullScale c.loop.vcm.coarse) c.slewStep ∧
      c.vcmUpdate.loop.vcm = { c.loop.vcm with pos := c.vcmUpdate.loop.vcm.pos } ∧ LensFrame [] c c.vcmUpdate := by
  rw [Chip.vcmUpdate_of_driving hdrive hhand]
  exact ⟨by simp, by simp, (LensFrame.refl _ c).setVcm _⟩

theorem Chip.handoverEnd_spec {c : Chip} (h : c.loop.vcm.handover = true) :
    c.handoverEnd.loop.vcm = { c.loop.vcm with handover := false } ∧
      LensFrame [F.LOOP_EVENTS.TARGET_CLAMP] c c.handoverEnd := by
  rw [Chip.handoverEnd_of_handover h]
  exact ⟨by simp, ((LensFrame.refl _ c).setVcm _).vcmConvert (by simp)⟩

end Sys2Proof.Machine

namespace Sys2Proof
open Machine

section
variable {s : State} {post : Chip → Prop}

theorem completes_vcmEnable (h : post s.chip.vcmEnable) : Completes .vcmEnable s post :=
  completes_of_act (fun _ c => c.vcmEnable) rfl rfl h

theorem completes_vcmDisable (h : post s.chip.vcmDisable) : Completes .vcmDisable s post :=
  completes_of_act (fun _ c => c.vcmDisable) rfl rfl h

theorem completes_vcmRange {coarse : Bool} (h : post (s.chip.vcmRangeWrite coarse)) : Completes (.vcmRange coarse) s post :=
  completes_of_act (fun _ c => c.vcmRangeWrite coarse) rfl rfl h

theorem completes_vcmTargetWrite {ua : Int} (hlo : -8388608 ≤ ua) (hhi : ua < 8388608) (h : post (s.chip.vcmTargetWrite ua)) :
    Completes (.vcmTargetWrite ua) s post :=
  completes_of_act (fun _ c => c.vcmTargetWrite ua) rfl (by simp [Instr.wf, hlo, hhi]) h

theorem completes_vcmUpdate (h : post s.chip.vcmUpdate) : Completes .vcmUpdate s post :=
  completes_of_act (fun _ c => c.vcmUpdate) rfl rfl h

theorem completes_vcmTrack (h : post s.chip.vcmTrack) : Completes .vcmTrack s post :=
  completes_of_act (fun _ c => c.vcmTrack) rfl rfl h

theorem completes_vcmOvercurrent (h : post s.chip.vcmOvercurrent) : Completes .vcmOvercurrent s post :=
  completes_of_act (fun _ c => c.vcmOvercurrent) rfl rfl h

theorem completes_vddvcmLow (h : post s.chip.vddvcmLow) : Completes .vddvcmLow s post :=
  completes_of_act (fun _ c => c.vddvcmLow) rfl rfl h

theorem completes_handoverEnd (h : post s.chip.handoverEnd) : Completes .handoverEnd s post :=
  completes_of_act (fun _ c => c.handoverEnd) rfl rfl h

theorem completes_vcmRampEnd (h : post s.chip.vcmRampEnd) : Completes .vcmRampEnd s post :=
  completes_of_act (fun _ c => c.vcmRampEnd) rfl rfl h

end

/-- Settles O45: each clause by the rule of its command. -/
theorem vcmCommandsDriveTheBridge : Obligations.VcmCommandsDriveTheBridge := by
  intro s
  refine ⟨?enable, ?refused, ?disable, ?range, ?target, ?following, ?faults, ?handover, ?rampEnd⟩
  case enable => exact fun htick hsupply hz => completes_vcmEnable (Chip.vcmEnable_of_z_spec htick hsupply hz)
  case refused => exact fun hports hno => completes_vcmEnable (Chip.vcmEnable_refused_spec hports hno)
  case disable => exact fun hopen hdrive => completes_vcmDisable (Chip.vcmDisable_of_driving_spec hopen hdrive)
  case range =>
    exact fun hopen howner hdrive => ⟨fun hfine => completes_vcmRange (Chip.vcmRange_coarse_spec hopen howner hdrive hfine),
      fun hcoarse hwide => completes_vcmRange (Chip.vcmRange_rejected_spec hopen howner hdrive hcoarse hwide)⟩
  case target => exact fun hopen ua hlo hhi => completes_vcmTargetWrite hlo hhi (Chip.vcmTargetWrite_spec hopen hlo hhi)
  case following =>
    intro hdrive hhand
    refine ⟨completes_vcmUpdate ?_, completes_vcmTrack ?_⟩
    · have hstep := s.chip.slewStep_nonneg
      obtain ⟨hpos, hrest, hframe⟩ := Chip.vcmUpdate_spec hdrive hhand
      exact ⟨fun hup hbelow => hpos.trans (approach_up hup hbelow), fun habove hdown => hpos.trans (approach_down habove hdown),
        fun hfar => hpos.trans (approach_far_up hstep hfar), fun hfar => hpos.trans (approach_far_down hstep hfar),
        hrest, hframe⟩
    · rw [Chip.vcmTrack_of_driving hdrive hhand]
      exact ⟨(inZ_vcmZ hdrive (by decide)).alert _ _ _, logged_alert _ _ _ _⟩
  case faults =>
    refine fun hdrive => ⟨completes_vcmOvercurrent ?_, completes_vddvcmLow ?_⟩
    · rw [Chip.vcmOvercurrent_of_driving hdrive]
      exact ⟨(inZ_vcmZ hdrive (by decide)).alert _ _ _, logged_alert _ _ _ _⟩
    · obtain ⟨hz, hsupply, hlogged⟩ := Chip.vddvcmFalls_spec (s.chip.loop.vcm.supplyOk || s.chip.vddvcmHigh) hdrive
      exact ⟨hz, hsupply, fun hused hok => hlogged hused (by rw [hok, Bool.true_or])⟩
  case handover => exact fun hhand => completes_handoverEnd (Chip.handoverEnd_spec hhand)
  case rampEnd =>
    intro hramp
    refine completes_vcmRampEnd ?_
    rw [Chip.vcmRampEnd_of_ramp hramp]
    exact Chip.vcmRampDone_spec s.chip

end Sys2Proof
end

section
/-!
PROOFS. Exposure edges with STROBE, its cut, and TRIG edges (O25).
-/
namespace Sys2Proof

/-- The edge opens its exposure. -/
abbrev Edge.opens (e : Edge) : Bool := e == .longOpen || e == .shortOpen

/-- It is an edge of the short exposure. -/
abbrev Edge.ofShort (e : Edge) : Bool := e == .shortOpen || e == .shortClose

end Sys2Proof

namespace Sys2Proof.Machine

/-! ### Flags and updates of the pixel array -/

theorem Chip.bit_of_fld_eq_one {c : Chip} {f : Fld} (h : c.fld f = 1) : c.bit f = true := by simp [Chip.bit, h]

theorem Pixel.ite_strobe (p : Pixel) (b : Prop) [Decidable b] (x : Bool) :
    (if b then { p with strobe := x } else p) = { p with strobe := if b then x else p.strobe } := by
  split <;> rfl

theorem Pixel.ite_startStamp (p : Pixel) (b : Prop) [Decidable b] (x : Nat) :
    (if b then { p with startStamp := x } else p) = { p with startStamp := if b then x else p.startStamp } := by
  split <;> rfl

/-- All that a change of a frame's metadata can do, made or not. -/
theorem Chip.ite_metaUpd (c : Chip) (b : Prop) [Decidable b] (frame : Nat) (f : FrameMeta → FrameMeta) :
    ∃ egress, (if b then c.metaUpd frame f else c) = { c with egress := egress } := by
  split
  · exact ⟨_, rfl⟩
  · exact ⟨c.egress, rfl⟩

/-! ### An exposure edge (R203, R212, R213) -/

/-- STROBE rises at an opening and falls at a closing, so it does not matter which of the two is asked first. -/
theorem Chip.strobe_falls_or_rises (c : Chip) (opening short : Bool) (row : Nat) :
    (if c.strobeFalls opening short row then false
      else if c.strobeRises opening short row = true ∧ c.strobeAllowed = true then true else c.pixel.strobe) =
    if c.strobeRises opening short row = true ∧ c.strobeAllowed = true then true
      else if c.strobeFalls opening short row then false else c.pixel.strobe := by
  cases opening with
  | false => simp [Chip.strobeRises]
  | true => simp [Chip.strobeFalls]

/-- The pixel array after an edge that acts. -/
def Chip.pixelAfter (c : Chip) (e : Edge) (row ps : Nat) : Pixel :=
  { c.pixel with
    openLong := c.pixel.openLong + (if e = .longOpen then 1 else 0) - (if e = .longClose then 1 else 0)
    openShort := c.pixel.openShort + (if e = .shortOpen then 1 else 0) - (if e = .shortClose then 1 else 0)
    startStamp := if e = .longOpen ∧ row = 0 then c.stampAt (1000 * ps) else c.pixel.startStamp
    strobe := if c.strobeRises e.opens e.ofShort row = true ∧ c.strobeAllowed = true then true
      else if c.strobeFalls e.opens e.ofShort row then false else c.pixel.strobe }

section
variable {c : Chip} {e : Edge} {row : Nat} (ps : Nat)

/-- An edge of the frame acts on the pixel array; the stamp of the frame's metadata is all else that it can change. -/
theorem Chip.exposureEdge_of_frame (htick : c.dev.ticking = true) (hactive : c.bit F.PIX_STATUS.ACTIVE = true)
    (hmode : e.ofShort = true → c.image.readout.short = true) (hrow : row < c.image.readout.rows) :
    ∃ egress, c.exposureEdge e row ps = { c with pixel := c.pixelAfter e row ps, egress := egress } := by
  have hguard : ¬ (!(c.dev.ticking && c.bit F.PIX_STATUS.ACTIVE) || (e.ofShort && !c.image.readout.short) ||
      decide (c.image.readout.rows ≤ row)) = true := by
    cases h : e.ofShort
    · simp [htick, hactive, hrow]
    · simp [htick, hactive, hrow, hmode h]
  unfold Chip.exposureEdge
  extract_lets readout opening short start counted stamped risen final edged
  rw [if_neg hguard]
  have hcounted : counted = { c.pixel with
      openLong := c.pixel.openLong + (if e = .longOpen then 1 else 0) - (if e = .longClose then 1 else 0)
      openShort := c.pixel.openShort + (if e = .shortOpen then 1 else 0) - (if e = .shortClose then 1 else 0) } := by
    cases e <;> rfl
  have hfinal : final = c.pixelAfter e row ps := by
    rw [Chip.pixelAfter, ← c.strobe_falls_or_rises]
    simp only [final, risen, stamped, Pixel.ite_startStamp, Pixel.ite_strobe, Bool.and_eq_true, hcounted, opening, short]
  rw [← hfinal]
  exact edged.ite_metaUpd _ _ _

/-- An edge of a short exposure in a mode without one, or outside the frame. -/
theorem Chip.exposureEdge_of_outside
    (hout : (e.ofShort = true ∧ c.image.readout.short = false) ∨ c.image.readout.rows ≤ row) :
    c.exposureEdge e row ps = c := by
  unfold Chip.exposureEdge
  refine if_pos ?_
  rcases hout with ⟨hshort, hmode⟩ | hrow
  · simp only [hshort, hmode, Bool.not_false, Bool.and_true, Bool.or_true, Bool.true_or]
  · simp [hrow]

end

/-! ### The cut of STROBE (R215) -/

theorem Chip.strobeCutNow_of_high {c : Chip} (hhigh : c.pixel.strobe = true) (hmax : c.live F.STROBE_MAX.US ≠ 0) :
    ∃ egress, c.strobeCutNow = { c.raise F.PIX_EVENTS.STROBE_CUT with
      pixel := { c.pixel with strobe := false, strobeCut := true }, egress := egress } := by
  unfold Chip.strobeCutNow
  rw [if_pos (by simp [hhigh, hmax])]
  exact ⟨_, rfl⟩

/-! ### TRIG (R217, R218) -/

theorem Chip.trigEdge_of_long {c : Chip} {ns : Nat} (ps : Nat) (htick : c.dev.ticking = true)
    (hmode : c.trigMode = 1 ∨ c.trigMode = 2) (hlong : 20 ≤ ns) : c.trigEdge ns ps = { c with pixel := { c.pixel with
      trigEdges := min 65535 (c.pixel.trigEdges + 1)
      trigSince := some ((c.pixel.trigSince.map (·.1)).getD c.now, c.now)
      trigFirst := if c.pixel.trigEdges = 0 then c.stampAt (1000 * ps) else c.pixel.trigFirst } } := by
  unfold Chip.trigEdge
  exact if_pos (by simp [htick, hmode, hlong])

/-- R217: a high level shorter than 20 ns makes no accepted edge. -/
theorem Chip.trigEdge_of_brief {c : Chip} {ns : Nat} (ps : Nat) (hbrief : ns < 20) : c.trigEdge ns ps = c := by
  simp [Chip.trigEdge, show ¬ 20 ≤ ns by omega]

end Sys2Proof.Machine

namespace Sys2Proof
open Machine

section
variable {s : State} {post : Chip → Prop}

theorem completes_exposureEdge {e : Edge} {row ps : Nat} (hrow : row < 8192) (hps : ps < 1000)
    (h : post (s.chip.exposureEdge e row ps)) : Completes (.exposureEdge e (row, ps)) s post :=
  completes_of_act (fun _ c => c.exposureEdge e row ps) rfl (by simp [Instr.wf, hrow, hps]) h

theorem completes_strobeCut (h : post s.chip.strobeCutNow) : Completes .strobeCut s post :=
  completes_of_act (fun _ c => c.strobeCutNow) rfl rfl h

theorem completes_trigEdge {ns ps : Nat} (hps : ps < 1000) (h : post (s.chip.trigEdge ns ps)) :
    Completes (.trigEdge (ns, ps)) s post :=
  completes_of_act (fun _ c => c.trigEdge ns ps) rfl (by simp [Instr.wf, hps]) h

end

/-- Settles O25: each clause by the equation of its command's meaning. -/
theorem exposuresStrobeAndTrig : Obligations.ExposuresStrobeAndTrig := by
  refine ⟨fun s e row ps hrow hps htick hactive => ⟨fun hmode hframe => ?inFrame, fun hout => ?outside⟩,
    fun s => ⟨fun hhigh hmax => ?cut, fun ns ps hps htick hmode => ⟨fun hlong => ?long, fun hbrief => ?brief⟩⟩⟩
  case inFrame =>
    obtain ⟨egress, hedge⟩ := Chip.exposureEdge_of_frame ps htick (Chip.bit_of_fld_eq_one hactive) hmode hframe
    exact completes_exposureEdge hrow hps (by rw [hedge]; exact ⟨rfl, rfl, rfl, rfl, rfl⟩)
  case outside => exact completes_exposureEdge hrow hps (Chip.exposureEdge_of_outside ps hout)
  case cut =>
    obtain ⟨egress, hcut⟩ := Chip.strobeCutNow_of_high hhigh hmax
    have hraised : FieldsBut [F.PIX_EVENTS.STROBE_CUT] s.chip s.chip.strobeCutNow := by
      rw [hcut]
      exact ((FieldsBut.refl _ s.chip).raise (List.mem_singleton_self _)).trans (FieldsBut.of_regs _ rfl)
    refine completes_strobeCut ⟨by rw [hcut], ?_, by rw [hcut], hraised⟩
    rw [hcut]
    exact Chip.fld_raise_same s.chip rfl (by decide)
  case long =>
    refine completes_trigEdge hps ?_
    rw [Chip.trigEdge_of_long ps htick hmode hlong]
    exact ⟨rfl, rfl, rfl, rfl⟩
  case brief => exact completes_trigEdge hps (Chip.trigEdge_of_brief ps hbrief)

end Sys2Proof
end

section
/-!
PROOFS. A sample enters the front pipeline (O27).
-/
namespace Sys2Proof.Machine

/-! ### Accesses to the memories leave the Terrace -/

theorem Chip.terrace_foldl {β : Type} (f : Chip → β → Chip) (hf : ∀ c b, (f c b).terrace = c.terrace) (l : List β)
    (c : Chip) : (l.foldl f c).terrace = c.terrace :=
  foldl_keeps (fun d : Chip => d.terrace = c.terrace) f (fun d b h => (hf d b).trans h) l c rfl

@[simp] theorem Chip.terrace_ceRate (c : Chip) (n t : Fld) (code : Nat) : (c.ceRate n t code).terrace = c.terrace := by
  unfold Chip.ceRate
  split <;> simp

@[simp] theorem Chip.terrace_sramCe (c : Chip) (k : Nat) (v : Byte) : (c.sramCe k v).terrace = c.terrace := by
  simp [Chip.sramCe]

@[simp] theorem Chip.terrace_sramUe (c : Chip) (k : Nat) (fault : Bool) : (c.sramUe k fault).terrace = c.terrace := by
  unfold Chip.sramUe
  split <;> simp

@[simp] theorem Chip.terrace_sramRead (fault : Bool) (k n : Nat) (c : Chip) :
    (Chip.sramRead fault k n c).2.terrace = c.terrace := by
  induction n generalizing k c with
  | zero => rfl
  | succ n ih =>
    unfold Chip.sramRead
    dsimp only
    rw [ih]
    split
    · rfl
    · exact Chip.terrace_sramCe _ _ _
    · exact Chip.terrace_sramUe _ _ _

@[simp] theorem Chip.terrace_plainCe (c : Chip) (a : Nat) (dies : List Nat) : (c.plainCe a dies).terrace = c.terrace := by
  simp only [Chip.plainCe, Chip.terrace_ceRate, Chip.terrace_set]
  rw [Chip.terrace_foldl _ (fun _ _ => Chip.terrace_count _ _ _)]
  simp

@[simp] theorem Chip.terrace_plainUe (c : Chip) (a : Nat) (fault : Bool) : (c.plainUe a fault).terrace = c.terrace := by
  unfold Chip.plainUe
  split <;> simp

@[simp] theorem Chip.terrace_plainReadLine (c : Chip) (who : PlainReader) (a : Nat) :
    (c.plainReadLine who a).2.terrace = c.terrace := by
  unfold Chip.plainReadLine
  split
  · simp
  · dsimp only
    split
    · split <;> split <;> simp
    · cases who <;> simp

@[simp] theorem Chip.terrace_plainReadLines (who : PlainReader) (a n : Nat) (c : Chip) :
    (Chip.plainReadLines who a n c).2.terrace = c.terrace := by
  induction n generalizing a c with
  | zero => rfl
  | succ n ih =>
    unfold Chip.plainReadLines
    dsimp only
    rw [ih, Chip.terrace_plainReadLine]

@[simp] theorem Chip.terrace_memRead (c : Chip) (who : PlainReader) (mem off n : Nat) :
    (c.memRead who mem off n).2.terrace = c.terrace := by
  unfold Chip.memRead
  dsimp only
  split
  · split
    · rfl
    · exact Chip.terrace_plainReadLines _ _ _ _
  · exact Chip.terrace_sramRead _ _ _ _

@[simp] theorem Chip.terrace_plainWriteLine (c : Chip) (a : Nat) (bs : List MByte) :
    (c.plainWriteLine a bs).terrace = c.terrace := by
  unfold Chip.plainWriteLine
  dsimp only
  split <;> simp

@[simp] theorem Chip.terrace_plainEngineWrite (c : Chip) (a : Nat) (bs : List MByte) :
    (c.plainEngineWrite a bs).terrace = c.terrace := by
  unfold Chip.plainEngineWrite
  split <;> simp

@[simp] theorem Chip.terrace_plainWriteLines (c : Chip) (a n : Nat) (bs : List MByte) :
    (c.plainWriteLines a n bs).terrace = c.terrace := by
  induction n generalizing c a bs with
  | zero => rfl
  | succ n ih => rw [Chip.plainWriteLines, ih, Chip.terrace_plainEngineWrite]

@[simp] theorem Chip.terrace_memWrite (c : Chip) (mem off : Nat) (bs : List MByte) :
    (c.memWrite mem off bs).terrace = c.terrace := by
  unfold Chip.memWrite
  dsimp only
  split
  · exact Chip.terrace_plainWriteLines _ _ _ _
  · rfl

/-! ### So do pushes to a queue (R476, R479) -/

@[simp] theorem Chip.terrace_countFlits (c : Chip) (vc n : Nat) : (c.countFlits vc n).terrace = c.terrace := by
  unfold Chip.countFlits
  split <;> simp

@[simp] theorem Chip.terrace_qWrite (c : Chip) (q off n v : Nat) : (c.qWrite q off n v).terrace = c.terrace :=
  Chip.terrace_memWrite _ _ _ _

@[simp] theorem Chip.terrace_qEvent (c : Chip) (q status : Nat) : (c.qEvent q status).terrace = c.terrace := rfl

@[simp] theorem Chip.terrace_qOpen (c : Chip) (q : Nat) : (c.qOpen q).2.terrace = c.terrace := by
  unfold Chip.qOpen
  dsimp only
  split
  · exact Chip.terrace_memRead _ _ _ _ _
  · split <;> simp

@[simp] theorem Chip.terrace_qNotActive (c : Chip) (q : Nat) : (c.qNotActive q).terrace = c.terrace := by
  simp [Chip.qNotActive]

@[simp] theorem Chip.terrace_qDrop (c : Chip) (q : Nat) (d : List Byte) (status : Nat) :
    (c.qDrop q d status).terrace = c.terrace := by
  simp [Chip.qDrop]

@[simp] theorem Chip.terrace_qAppend (c : Chip) (q : Nat) (d : List Byte) (el : List MByte) :
    (c.qAppend q d el).terrace = c.terrace := by
  simp [Chip.qAppend]

@[simp] theorem Chip.terrace_qPushOpen (c : Chip) (q : Nat) (d : List Byte) (el : List MByte) (waits : Bool) :
    (c.qPushOpen q d el waits).2.terrace = c.terrace := by
  unfold Chip.qPushOpen
  dsimp only
  repeat' split
  all_goals simp

@[simp] theorem Chip.terrace_qPush (c : Chip) (q : Nat) (el : List MByte) (waits : Bool) :
    (c.qPush q el waits).2.terrace = c.terrace := by
  have hopen := Chip.terrace_qOpen (c.tallyAdd F.Q_OPS.COUNT 1) q
  unfold Chip.qPush
  split <;> rename_i heq <;> rw [heq] at hopen
  · exact hopen
  · exact (Chip.terrace_qPushOpen _ _ _ _ _).trans hopen

/-! ### And so does every stage of the front pipeline -/

@[simp] theorem Chip.terrace_metaUpd (c : Chip) (frame : Nat) (g : FrameMeta → FrameMeta) :
    (c.metaUpd frame g).terrace = c.terrace := rfl

@[simp] theorem Chip.terrace_frontUpd (c : Chip) (frame : Nat) (g : FrontFrame → FrontFrame) :
    (c.frontUpd frame g).terrace = c.terrace := rfl

@[simp] theorem Chip.terrace_frontTell (c : Chip) (frame bit : Nat) (ev : Fld) (code : Nat) :
    (c.frontTell frame bit ev code).terrace = c.terrace := by
  unfold Chip.frontTell
  split
  · rfl
  · dsimp only
    split <;> simp

@[simp] theorem Chip.terrace_frontAverage (c : Chip) (r : Readout) (f : FrontFrame) (s : Sample) (obRow : Option Nat) :
    (c.frontAverage r f s obRow).terrace = c.terrace := by
  unfold Chip.frontAverage
  extract_lets key rows d
  have hd : d.terrace = c.terrace := by
    unfold d
    split <;> rfl
  split
  · split
    · split
      · rw [Chip.terrace_frontTell, hd]
      · exact hd
    · exact hd
  · exact hd

@[simp] theorem Chip.terrace_frontBlackDone (c : Chip) (r : Readout) (f : FrontFrame) (p : Nat) :
    (c.frontBlackDone r f p).terrace = c.terrace := by
  unfold Chip.frontBlackDone
  split
  extract_lets b completed shown
  have hshown : shown.terrace = c.terrace := by
    unfold shown
    split <;> rfl
  split
  · rw [Chip.terrace_frontTell, Chip.terrace_metaUpd, hshown]
  · exact hshown

@[simp] theorem Chip.terrace_frontOb (c : Chip) (r : Readout) (f : FrontFrame) (s : Sample) (y : Nat) :
    (c.frontOb r f s y).terrace = c.terrace := by
  unfold Chip.frontOb
  dsimp only
  split <;> simp

@[simp] theorem Chip.terrace_frontOutRow (c : Chip) (v : FrontView) (i : Nat) (o : OutDesc) (y : Nat) :
    (c.frontOutRow v i o y).terrace = c.terrace := by
  unfold Chip.frontOutRow
  extract_lets n w d
  have hd : d.terrace = c.terrace :=
    Chip.terrace_foldl _ (fun _ _ => Chip.terrace_foldl _ (fun _ _ => Chip.terrace_memWrite _ _ _ _) _ _) _ _
  split
  · rw [Chip.terrace_qPush, Chip.terrace_countFlits, hd]
  · exact hd

@[simp] theorem Chip.terrace_frontStats (c : Chip) (v : FrontView) (ty : Nat) : (c.frontStats v ty).terrace = c.terrace :=
  Chip.terrace_foldl _ (fun _ _ => Chip.terrace_memWrite _ _ _ _) _ _

@[simp] theorem Chip.terrace_frontRow (c : Chip) (v : FrontView) (y : Nat) : (c.frontRow v y).terrace = c.terrace := by
  unfold Chip.frontRow
  extract_lets told written stats
  have htold : told.terrace = c.terrace := by
    unfold told
    split <;> simp
  have hwritten : written.terrace = told.terrace := by
    refine Chip.terrace_foldl _ (fun d o => ?_) _ _
    split <;> simp
  have hstats : stats.terrace = written.terrace := by
    unfold stats
    split <;> simp
  rw [Chip.terrace_set, hstats, hwritten, htold]

@[simp] theorem Chip.terrace_frontRows (c : Chip) (frame fuel : Nat) : (c.frontRows frame fuel).terrace = c.terrace := by
  induction fuel generalizing c with
  | zero => rfl
  | succ fuel ih =>
    unfold Chip.frontRows
    split
    · rfl
    · dsimp only
      split
      · rw [ih, Chip.terrace_frontUpd, Chip.terrace_frontRow]
      · split <;> simp

@[simp] theorem Chip.terrace_frontShort (c : Chip) (r : Readout) (f : FrontFrame) (x y u : Nat) :
    (c.frontShort r f x y u).terrace = c.terrace := by
  unfold Chip.frontShort
  dsimp only
  split <;> simp

@[simp] theorem Chip.terrace_frontMerge (c : Chip) (r : Readout) (f : FrontFrame) (x y : Nat) (codes : List Nat) :
    (c.frontMerge r f x y codes).terrace = c.terrace := by
  unfold Chip.frontMerge
  extract_lets key longs bits read gone short unmarked p merged
  have hread : read.terrace = c.terrace := by
    unfold read
    split
    · exact Chip.terrace_memRead _ _ _ _ _
    · rfl
  have hmerged : merged.terrace = c.terrace := hread
  split
  · rw [Chip.terrace_frontRows, hmerged]
  · exact hmerged

@[simp] theorem Chip.terrace_frontActive (c : Chip) (r : Readout) (f : FrontFrame) (s : Sample) (y : Nat) :
    (c.frontActive r f s y).terrace = c.terrace := by
  unfold Chip.frontActive
  dsimp only
  repeat' split
  all_goals simp

/-! ### A sum and count, and a frame that changes -/

/-- R268: a value added to a phase's sum is one sample more of that phase. -/
theorem get_addSum_same (m : List (Nat × (Nat × Nat))) (key v : Nat) :
    Sparse.get (fun _ => (0, 0)) (addSum m key v) key =
      ((Sparse.get (fun _ => (0, 0)) m key).1 + v, (Sparse.get (fun _ => (0, 0)) m key).2 + 1) :=
  Sparse.get_set_same _ _ _ _

/-- A frame that is replaced by one of the same number is found as that one. -/
theorem Chip.find_frontUpd {c : Chip} {frame : Nat} {f g : FrontFrame} (hfind : c.front.find? (fun f => f.frame == frame) = some f)
    (hg : g.frame = f.frame) : (c.frontUpd f.frame fun _ => g).front.find? (fun f => f.frame == frame) = some g := by
  have hframe : f.frame = frame := by simpa using List.find?_some hfind
  have hsame : ((fun f : FrontFrame => f.frame == frame) ∘ fun x => if x.frame = frame then g else x) =
      fun f => f.frame == frame := by
    funext x
    by_cases hx : x.frame = frame <;> simp [hx, hg, hframe]
  rw [Chip.frontUpd, hframe, List.find?_map, hsame, hfind, Option.map_some, if_pos hframe]

/-! ### What a sample does (R266, R268) -/

/-- A sample of the rows that give the black level, short of their last, is added to its phase's sum. -/
theorem Chip.frontOb_of_black (c : Chip) {r : Readout} {f : FrontFrame} {x : Sample} {y v : Nat} (hcode : x.code = some v)
    (hblack : blackRow r y = true) (hlast : ¬ (y + 1 = r.obRows ∧ x.col + 1 = r.width)) :
    c.frontOb r f x y = c.frontUpd f.frame fun _ => { f with obSum := addSum f.obSum x.phase v } := by
  simp [Chip.frontOb, hcode, hblack, hlast]

section
variable {c : Chip} {x : Sample} {rest : List Sample} (hsamples : c.terrace.samples = x :: rest)
include hsamples

/-- Every sample, lost or processed, is taken from the Terrace, which nothing else changes. -/
theorem Chip.terrace_sampleArrival : c.sampleArrival.terrace = { c.terrace with samples := rest } := by
  unfold Chip.sampleArrival
  rw [hsamples]
  dsimp only
  split
  · rfl
  · split
    · rfl
    · split
      · rw [Chip.terrace_frontAverage, Chip.terrace_setBit]
      · split
        · rw [Chip.terrace_frontActive, Chip.terrace_setBit]
        · rw [Chip.terrace_frontOb, Chip.terrace_setBit]

/-- A sample of a frame no longer in the pipeline is lost. -/
theorem Chip.sampleArrival_of_lost (hlost : c.front.find? (fun f => f.frame == x.frame) = none) :
    c.sampleArrival = { c with terrace := { c.terrace with samples := rest } } := by
  simp [Chip.sampleArrival, hsamples, hlost]

/-- A sample at an active column of an optical-black row, of a frame in the pipeline. -/
theorem Chip.sampleArrival_of_ob {f : FrontFrame} {r : Readout} {y : Nat}
    (hfind : c.front.find? (fun f => f.frame == x.frame) = some f) (hr : (c.wiring f.old).readout = r)
    (hrow : r.rowAt (if r.phaseShort x.phase then x.k + r.lead else x.k) = some (false, y)) (hcol : x.col < 8192) :
    c.sampleArrival =
      (Chip.setBit { c with terrace := { c.terrace with samples := rest } } F.FR_STATUS.ACTIVE true).frontOb r f x y := by
  have hwiring (t : Terrace) (b : Bool) :
      (Chip.setBit { c with terrace := t } F.FR_STATUS.ACTIVE b).wiring f.old = c.wiring f.old := rfl
  unfold Chip.sampleArrival
  rw [hsamples]
  dsimp only
  rw [hfind]
  dsimp only
  rw [hwiring, hr, Int.ofNat_eq_natCast, hrow]
  dsimp only
  rw [if_neg (Nat.not_le_of_lt hcol), if_neg Bool.false_ne_true]

end

end Sys2Proof.Machine

namespace Sys2Proof
open Machine

theorem completes_sampleArrival {s : State} {post : Chip → Prop} (h : post s.chip.sampleArrival) :
    Completes .sampleArrival s post :=
  completes_of_act (fun _ c => c.sampleArrival) rfl rfl h

/-- Settles O27: what every sample leaves of the Terrace, then the equations of a lost sample and of an optical-black one. -/
theorem samplesEnterTheFrontPipeline : Obligations.SamplesEnterTheFrontPipeline := by
  intro s x rest hsamples
  refine ⟨completes_sampleArrival ?taken, fun hlost => completes_sampleArrival ?lost, ?black⟩
  case taken => rw [Chip.terrace_sampleArrival hsamples]
  case lost => exact Chip.sampleArrival_of_lost hsamples hlost
  case black =>
    intro f y v hfind r hrow hcol hcode hblack hlast
    refine completes_sampleArrival ?_
    rw [Chip.sampleArrival_of_ob hsamples hfind rfl hrow hcol, Chip.frontOb_of_black _ hcode hblack hlast]
    exact ⟨Chip.fld_setBit_same _ true rfl (by decide), _, Chip.find_frontUpd hfind rfl, get_addSum_same _ _ _⟩

end Sys2Proof
end

section
/-!
PROOFS. The island of an EXACT unit arrives, and writes of REQ_MHZ (O33).
-/
namespace Sys2Proof.Machine

/-! ### The unit in progress on a lane -/

/-- The unit in progress is a matter of the schedule alone. -/
theorem Chip.laneRun_congr {c d : Chip} (h : d.sched = c.sched) (lane : Nat) : d.laneRun lane = c.laneRun lane := by
  simp only [Chip.laneRun, h]

/-- A busy lane's unit that is changed is the lane's unit. -/
theorem Chip.laneRun_setRun_same {c : Chip} {lane : Nat} {u : UnitRun} (h : c.laneRun lane = some u) (v : UnitRun) :
    (c.setRun lane v).laneRun lane = some v := by
  obtain ⟨e, hfind, -⟩ := Option.map_eq_some_iff.mp h
  have hlane : e.1 = lane := by simpa using List.find?_some hfind
  have hsame : ((fun e : Nat × UnitRun => e.1 == lane) ∘ fun e => if e.1 = lane then (lane, v) else e) =
      fun e => e.1 == lane := by
    funext e
    by_cases he : e.1 = lane <;> simp [he]
  simp only [Chip.laneRun, Chip.setRun, List.find?_map, hsame, hfind, Option.map_some, if_pos hlane]

/-! ### Replay cycles are charged (R383, R384) -/

@[simp] theorem Chip.sched_setIsland (c : Chip) (n : Nat) (x : Island) : (c.setIsland n x).sched = c.sched := rfl

@[simp] theorem Chip.sched_raiseIsland (c : Chip) (n : Nat) : (c.raiseIsland n).sched = c.sched := by
  unfold Chip.raiseIsland
  dsimp only
  split <;> rfl

@[simp] theorem Chip.sched_holdForReplay (c : Chip) (n : Nat) : (c.holdForReplay n).sched = c.sched := by
  simp [Chip.holdForReplay]

/-- R384: an exhausted budget changes of the unit only what it has been told. -/
theorem Chip.laneRun_exhaust {c : Chip} {n : Nat} {u : UnitRun} (h : c.laneRun n = some u) :
    ∃ told, (c.exhaust n u).laneRun n = some { u with told := told } := by
  unfold Chip.exhaust
  split
  · exact ⟨u.told, h⟩
  · refine ⟨u.told ||| 8, Chip.laneRun_setRun_same (u := u) ?_ _⟩
    rw [Chip.laneRun_congr (c := c) (by simp), h]

/-- R383: a charge changes of the unit only the cycles it has used, and what it has been told. -/
theorem Chip.laneRun_chargeReplay {c : Chip} {n : Nat} {u : UnitRun} (h : c.laneRun n = some u) (cost : Nat) :
    ∃ told, (c.chargeReplay n cost).laneRun n = some { u with replayed := u.replayed + cost, told := told } := by
  simp only [Chip.chargeReplay, h]
  have hcharged := Chip.laneRun_setRun_same h { u with replayed := u.replayed + cost }
  split
  · exact Chip.laneRun_exhaust hcharged
  · exact ⟨u.told, hcharged⟩

/-! ### The island arrives (R398) -/

theorem Chip.islandArrived_of_waiting {c : Chip} {n : Nat} {u : UnitRun} (h : c.laneRun n = some u) (hwait : u.waiting = true)
    (hsafe : c.atSafe n = true) : ∃ cost, c.islandArrived n =
      if cost = 0 then c.setRun n { u with waiting := false } else (c.setRun n { u with waiting := false }).chargeReplay n cost := by
  simp only [Chip.islandArrived, h, hwait, hsafe, Bool.and_self, ↓reduceIte]
  exact ⟨_, rfl⟩

/-- The held unit waits no longer; the charge for the hold leaves its entry and its pass. -/
theorem Chip.laneRun_islandArrived {c : Chip} {n : Nat} {u : UnitRun} (h : c.laneRun n = some u) (hwait : u.waiting = true)
    (hsafe : c.atSafe n = true) :
    ∃ v, (c.islandArrived n).laneRun n = some v ∧ v.waiting = false ∧ v.entry = u.entry ∧ v.pass = u.pass := by
  obtain ⟨cost, harrived⟩ := Chip.islandArrived_of_waiting h hwait hsafe
  have hbegun := Chip.laneRun_setRun_same h { u with waiting := false }
  rw [harrived]
  split
  · exact ⟨_, hbegun, rfl, rfl, rfl⟩
  · obtain ⟨told, hcharged⟩ := Chip.laneRun_chargeReplay hbegun cost
    exact ⟨_, hcharged, rfl, rfl, rfl⟩

/-! ### A write of REQ_MHZ (R320) -/

/-- All that accepting a host write adds to what `f` does: the words kept for a boundary in the same TICK cycle (R20). -/
theorem Chip.accept_eq (c : Chip) (a : Nat) (f : Chip → Chip) : ∃ kept time, c.accept a f =
    f { c with sched := { c.sched with written := kept, writtenAt := time } } := by
  unfold Chip.accept
  split
  · exact ⟨_, _, rfl⟩
  · exact ⟨c.sched.written, c.sched.writtenAt, rfl⟩

/-- A write that is not ignored: the device acts on registers, and the Vale is in service. -/
theorem Chip.reqMhzWrite_of_served {c : Chip} {n : Nat} (mhz : Nat) (hopen : c.dev.open = true) (hfence : c.fenced n = false)
    (hused : c.loader.image = none ∨ c.table.mhz n ≠ 0) :
    c.reqMhzWrite n mhz = c.set (F.VALE_CLK.REQ_MHZ.vale n) (c.requestedMhz n mhz) := by
  have huses : (c.loader.image.isNone || c.table.mhz n != 0) = true := by simpa using hused
  simp [Chip.reqMhzWrite, hopen, hfence, huses]

/-- The clock requested fits its field of 10 bits. -/
theorem Chip.requestedMhz_lt (c : Chip) (n mhz : Nat) : c.requestedMhz n mhz < 2 ^ 10 :=
  Nat.lt_of_le_of_lt (Nat.min_le_left 1000 _) (by decide)

/-- An accepted write of REQ_MHZ puts one field, and keeps words for a boundary in its TICK cycle. -/
theorem Chip.accept_reqMhzWrite {c : Chip} {n : Nat} (a mhz : Nat) (hopen : c.dev.open = true) (hfence : c.fenced n = false)
    (hused : c.loader.image = none ∨ c.table.mhz n ≠ 0) :
    ∃ kept time, (c.accept a fun c => c.reqMhzWrite n mhz) =
      { c.set (F.VALE_CLK.REQ_MHZ.vale n) (c.requestedMhz n mhz) with
        sched := { c.sched with written := kept, writtenAt := time } } := by
  obtain ⟨kept, time, haccept⟩ := c.accept_eq a fun c => c.reqMhzWrite n mhz
  exact ⟨kept, time, haccept.trans (Chip.reqMhzWrite_of_served mhz hopen hfence hused)⟩

end Sys2Proof.Machine

namespace Sys2Proof
open Machine

section
variable {s : State} {post : Chip → Prop} {n : Nat}

theorem completes_islandAtSafeMv (hn : n < 6) (h : post (s.chip.islandArrived n)) : Completes (.islandAtSafeMv n) s post :=
  completes_of_act (fun _ c => c.islandArrived n) rfl (by simpa [Instr.wf] using hn) h

theorem completes_reqMhzWrite {mhz : Nat} (hn : n < 6) (hmhz : mhz < 1024)
    (h : post (s.chip.accept (A.VALE_CLK + 0x1000 * n) fun c => c.reqMhzWrite n mhz)) : Completes (.reqMhzWrite n mhz) s post :=
  completes_of_act (fun _ c => c.accept (A.VALE_CLK + 0x1000 * n) fun c => c.reqMhzWrite n mhz) rfl
    (by simp [Instr.wf, hn, hmhz]) h

end

/-- Settles O33: the held unit by what a charge leaves of it, the write as one field put into the register. -/
theorem exactUnitsBeginAndClocksAreRequested : Obligations.ExactUnitsBeginAndClocksAreRequested := by
  intro s n hn
  refine ⟨fun u hrun hwait hsafe => completes_islandAtSafeMv hn (Chip.laneRun_islandArrived hrun hwait hsafe),
    fun mhz hmhz hopen hfence hused => completes_reqMhzWrite hn hmhz ?written⟩
  obtain ⟨kept, time, haccept⟩ := Chip.accept_reqMhzWrite (A.VALE_CLK + 0x1000 * n) mhz hopen hfence hused
  rw [haccept]
  refine ⟨?value, rfl, ?fields⟩
  case value =>
    exact (Chip.fld_set_same s.chip _ _ (by decide : 0 + 10 ≤ 32)).trans (Nat.mod_eq_of_lt (s.chip.requestedMhz_lt n mhz))
  case fields => exact ((FieldsBut.refl _ s.chip).set _ (List.mem_singleton_self _)).trans (FieldsBut.of_regs _ rfl)

end Sys2Proof
end

section
/-!
PROOFS. Decisions and switches of expert placements (O37).
-/
namespace Sys2Proof.Machine

/-! ### A layer is put in place -/

@[simp] theorem Chip.layer_false (c : Chip) (l : Nat) : c.layer false l = c.layers[l]? := rfl

@[simp] theorem Chip.setLayer_false (c : Chip) (l : Nat) (x : Layer) :
    c.setLayer false l x = { c with layers := c.layers.set l x } := rfl

/-! ### What a switch makes of a layer (R368) -/

/-- Entry `i` of a list rewritten entry by entry. -/
theorem getD_map_zipIdx {α : Type} (xs : List α) (f : α × Nat → α) (d : α) {i : Nat} (h : i < xs.length) :
    (xs.zipIdx.map f).getD i d = f (xs.getD i d, i) := by
  simp [List.getD_eq_getElem?_getD, h]

/-- A layer with the revision `p` in force (R368). -/
def Chip.switchedLayer (c : Chip) (r : LayerRec) (x : Layer) (p : List (Option Nat)) : Layer :=
  { x with
    seats := x.seats.zipIdx.map fun s => match p.getD s.2 none with
      | some e => if c.valeOut (r.seat s.2).vale then none else some e
      | none => s.1
    banks := x.banks.zipIdx.map fun b => if (p.getD b.2 none).isSome then !b.1 else b.1
    pending := none, copied := [], switched := true, dueSwitch := false, version := (x.version + 1) % 256 }

/-- R368, R369: a seat of the revision takes its expert, unless its Vale is out of service. -/
theorem Chip.seats_switchedLayer {c : Chip} {r : LayerRec} {x : Layer} {p : List (Option Nat)} {i e : Nat}
    (hi : i < x.seats.length) (he : p.getD i none = some e) :
    (c.switchedLayer r x p).seats.getD i none = if c.valeOut (r.seat i).vale then none else some e := by
  rw [Chip.switchedLayer, getD_map_zipIdx _ _ _ hi, he]

/-- R368: the banks of the revision's seats exchange. -/
theorem Chip.banks_switchedLayer {c : Chip} {r : LayerRec} {x : Layer} (p : List (Option Nat)) {i : Nat}
    (hi : i < x.banks.length) :
    (c.switchedLayer r x p).banks.getD i false = (x.banks.getD i false ^^ (p.getD i none).isSome) := by
  rw [Chip.switchedLayer, getD_map_zipIdx _ _ _ hi]
  cases (p.getD i none).isSome <;> simp

/-! ### What a decision makes of a layer (R366) -/

/-- A layer whose decision is made, with no new revision. -/
abbrev Layer.decided (x : Layer) : Layer := { x with dueDecision := false, period := [] }

/-- The revision that a decision's moves make pending: the new expert of each seat that one of them names. -/
abbrev LayerRec.revision (r : LayerRec) (moves : List (Nat × Nat)) : List (Option Nat) :=
  moves.foldl (fun (q : List (Option Nat)) mv => q.set mv.1 (some mv.2)) (r.seats.map fun _ => none)

/-! ### Decisions (R366, R369, R370) and switches (R368) that fall due -/

section
variable {c : Chip} {l : Nat} {r : LayerRec} {x : Layer}
  (hrec : c.image.layerRecs[l]? = some r) (hlayer : c.layers[l]? = some x) (htick : c.dev.ticking = true)
include hrec hlayer htick

section
variable {p : Policy} (hpolicy : c.image.policies.find? (fun p => p.layer == l) = some p) (hdue : x.dueDecision = true)
include hpolicy hdue

/-- R370: a frozen layer's decision makes nothing pending. -/
theorem Chip.placementDecision_of_frozen (hfrozen : c.layerFrozen r = true) :
    c.placementDecision l = c.setLayer false l x.decided := by
  simp [Chip.placementDecision, hrec, hlayer, hpolicy, htick, hdue, hfrozen]

/-- R369: a decision is skipped while a revision is pending. -/
theorem Chip.placementDecision_of_pending (hfrozen : c.layerFrozen r = false) (hpending : x.pending ≠ none) :
    c.placementDecision l = (c.setLayer false l x.decided).raise F.RT_EVENTS.PLACE_SKIP := by
  have hsome : x.pending.isSome = true := Option.isSome_iff_ne_none.mpr hpending
  simp [Chip.placementDecision, hrec, hlayer, hpolicy, htick, hdue, hfrozen, hsome]

/-- A decision that demand gives no moves. -/
theorem Chip.placementDecision_of_idle (hfrozen : c.layerFrozen r = false) (hpending : x.pending = none)
    (hmoves : c.decide_ r p x = []) : c.placementDecision l = c.setLayer false l x.decided := by
  have hnone : x.pending.isSome = false := Option.isSome_eq_false_iff.mpr (by simp [hpending])
  simp [Chip.placementDecision, hrec, hlayer, hpolicy, htick, hdue, hfrozen, hnone, hmoves]

/-- R366: the moves that demand gives become the pending revision, of which nothing is copied yet. -/
theorem Chip.placementDecision_of_moves (hfrozen : c.layerFrozen r = false) (hpending : x.pending = none)
    (hmoves : c.decide_ r p x ≠ []) : c.placementDecision l =
      c.setLayer false l { x.decided with pending := some (r.revision (c.decide_ r p x)), copied := [] } := by
  have hnone : x.pending.isSome = false := Option.isSome_eq_false_iff.mpr (by simp [hpending])
  simp [Chip.placementDecision, hrec, hlayer, hpolicy, htick, hdue, hfrozen, hnone, hmoves, LayerRec.revision]

end

/-- A switch that falls due puts the pending revision into force, and changes nothing else. -/
theorem Chip.placementSwitch_of_due {p : List (Option Nat)} (hpending : x.pending = some p) (hdue : x.dueSwitch = true) :
    c.placementSwitch l = c.setLayer false l (c.switchedLayer r x p) := by
  simp only [Chip.placementSwitch, Chip.layer_false, hrec, hlayer, hpending, htick, hdue, Bool.and_self, ↓reduceIte]
  rfl

end

end Sys2Proof.Machine

namespace Sys2Proof
open Machine

section
variable {s : State} {post : Chip → Prop} {l : Nat}

theorem completes_placementDecision (hl : l < 16) (h : post (s.chip.placementDecision l)) :
    Completes (.placementDecision l) s post :=
  completes_of_act (fun _ c => c.placementDecision l) rfl (by simpa [Instr.wf] using hl) h

theorem completes_placementSwitch (hl : l < 16) (h : post (s.chip.placementSwitch l)) :
    Completes (.placementSwitch l) s post :=
  completes_of_act (fun _ c => c.placementSwitch l) rfl (by simpa [Instr.wf] using hl) h

end

/-- Settles O37: a decision by what holds of the layer when it falls due, a switch by the layer it puts in place. -/
theorem placementDecidesAndSwitches : Obligations.PlacementDecidesAndSwitches := by
  intro s l r x hl htick hrec hlayer
  refine ⟨fun p hpolicy hdue => ⟨fun hstays => completes_placementDecision hl ?stays,
    fun hfrozen hpending => completes_placementDecision hl ?skipped,
    fun hfrozen hpending hmoves => completes_placementDecision hl ?moved⟩,
    fun p hpending hdue => completes_placementSwitch hl ?switched⟩
  case stays =>
    cases hfrozen : s.chip.layerFrozen r with
    | true => exact Chip.placementDecision_of_frozen hrec hlayer htick hpolicy hdue hfrozen
    | false =>
      obtain ⟨hpending, hmoves⟩ := hstays.resolve_left (by simp [hfrozen])
      exact Chip.placementDecision_of_idle hrec hlayer htick hpolicy hdue hfrozen hpending hmoves
  case skipped =>
    rw [Chip.placementDecision_of_pending hrec hlayer htick hpolicy hdue hfrozen hpending]
    exact ⟨rfl, Chip.fld_raise_same _ rfl (by decide)⟩
  case moved => exact Chip.placementDecision_of_moves hrec hlayer htick hpolicy hdue hfrozen hpending hmoves
  case switched =>
    rw [Chip.placementSwitch_of_due hrec hlayer htick hpending hdue]
    exact ⟨_, rfl, rfl, rfl, rfl, fun i e => Chip.seats_switchedLayer, fun i => Chip.banks_switchedLayer p, rfl⟩

end Sys2Proof
end

section
/-!
PROOFS. All that accesses to memories and queues can do: the parts of the chip that they write, and nothing else.
-/
namespace Sys2Proof.Machine

/-- An access may have made `d` of `c`: registers and counts, faults, memories, records and the fabric may differ, nothing else. -/
def Chip.Accessed (c d : Chip) : Prop :=
  d = { c with regs := d.regs, tally := d.tally, faults := d.faults, once := d.once, mem := d.mem, fabric := d.fabric,
               egress := d.egress }

namespace Chip.Accessed

section
variable {c d e : Chip}

theorem refl (c : Chip) : Accessed c c := rfl

theorem trans (h : Accessed c d) (k : Accessed d e) : Accessed c e := by
  unfold Accessed at *
  rw [k, h]

theorem foldl {α : Type} {f : Chip → α → Chip} (hf : ∀ c a, Accessed c (f c a)) (as : List α) (c : Chip) :
    Accessed c (as.foldl f c) :=
  foldl_keeps (Accessed c) f (fun _ a h => h.trans (hf _ a)) as c (refl c)

theorem foldl_snd {α β : Type} {f : β × Chip → α → β × Chip} (hf : ∀ s a, Accessed s.2 (f s a).2) (as : List α)
    (s : β × Chip) : Accessed s.2 (as.foldl f s).2 :=
  foldl_keeps (fun t : β × Chip => Accessed s.2 t.2) f (fun _ a h => h.trans (hf _ a)) as s (refl s.2)

theorem set (h : Accessed c d) (f : Fld) (x : Nat) : Accessed c (d.set f x) := h.trans rfl

theorem setBit (h : Accessed c d) (f : Fld) (b : Bool) : Accessed c (d.setBit f b) := h.trans rfl

theorem raise (h : Accessed c d) (f : Fld) : Accessed c (d.raise f) := h.trans rfl

theorem tallyAdd (h : Accessed c d) (f : Fld) (n : Nat) : Accessed c (d.tallyAdd f n) := h.trans rfl

theorem count (h : Accessed c d) (f : Fld) (n : Nat) : Accessed c (d.count f n) := h.trans rfl

theorem setMem (h : Accessed c d) (m : Mem) : Accessed c { d with mem := m } := h.trans rfl

theorem alert (h : Accessed c d) (code unit detail : Nat) : Accessed c (d.alert code unit detail) := by
  refine h.trans ?_
  unfold Accessed
  rw [Chip.alert_eq]

theorem alertOnce (h : Accessed c d) (code unit detail : Nat) : Accessed c (d.alertOnce code unit detail) := by
  refine h.trans ?_
  unfold Accessed
  rw [Chip.alertOnce_eq]

theorem sched (h : Accessed c d) : d.sched = c.sched := by rw [h]

theorem layers (h : Accessed c d) : d.layers = c.layers := by rw [h]

theorem layersOld (h : Accessed c d) : d.layersOld = c.layersOld := by rw [h]

theorem layer (h : Accessed c d) (old : Bool) (l : Nat) : d.layer old l = c.layer old l := by
  simp only [Chip.layer, h.layers, h.layersOld]

end

/-! ### SRAM -/

theorem of_ceRate (c : Chip) (count threshold : Fld) (code : Nat) : Accessed c (c.ceRate count threshold code) := by
  unfold Chip.ceRate
  split
  · exact ((refl c).raise _).alertOnce _ _ _
  · exact refl c

theorem of_sramCe (c : Chip) (k : Nat) (v : Byte) : Accessed c (c.sramCe k v) :=
  ((((refl c).setMem _).tallyAdd _ _).raise _ |>.set _ _ |>.set _ _ |>.set _ _ |>.set _ _).trans (of_ceRate _ _ _ _)

theorem of_sramUe (c : Chip) (k : Nat) (fault : Bool) : Accessed c (c.sramUe k fault) := by
  have hlogged := ((refl c).tallyAdd F.ECC_SRAM_COUNT.UE 1).raise F.ECC_EVENTS.SRAM_UE |>.set F.ECC_SRAM_LOG.VALID 1
    |>.set F.ECC_SRAM_LOG.MEM (k / 0x100000000) |>.set F.ECC_SRAM_LOG.UE 1 |>.set F.ECC_SRAM_LOG.OFFSET (k % 0x100000000)
  unfold Chip.sramUe
  split
  · exact hlogged.alertOnce _ _ _
  · exact hlogged

theorem of_sramRead (fault : Bool) (k n : Nat) (c : Chip) : Accessed c (Chip.sramRead fault k n c).2 := by
  induction n generalizing k c with
  | zero => exact refl c
  | succ n ih =>
    unfold Chip.sramRead
    refine trans ?_ (ih _ _)
    split
    · exact refl c
    · exact of_sramCe c _ _
    · exact of_sramUe c _ _

/-! ### The Plain -/

theorem of_plainCe (c : Chip) (a : Nat) (dies : List Nat) : Accessed c (c.plainCe a dies) := by
  have hcounted := (((refl c).tallyAdd F.ECC_PLAIN_COUNT.CE 1).raise F.ECC_EVENTS.CE).trans
    (foldl (fun d die => (refl d).count (F.ECC_DIE_CE.CURRENT.el die) 1) dies _)
  exact (hcounted.set _ _ |>.set _ _ |>.set _ _ |>.set _ _).trans (of_ceRate _ _ _ _)

theorem of_plainUe (c : Chip) (a : Nat) (fault : Bool) : Accessed c (c.plainUe a fault) := by
  have hlogged := ((refl c).tallyAdd F.ECC_PLAIN_COUNT.UE 1).raise F.ECC_EVENTS.PLAIN_UE |>.set F.ECC_PLAIN_LOG.VALID 1
    |>.set F.ECC_PLAIN_LOG.UE 1 |>.set F.ECC_PLAIN_LOG.DIE 0xF |>.set F.ECC_PLAIN_LOG.LINE a
  unfold Chip.plainUe
  split
  · exact hlogged.alertOnce _ _ _
  · exact hlogged

theorem of_plainReadLine (c : Chip) (who : PlainReader) (a : Nat) : Accessed c (c.plainReadLine who a).2 := by
  unfold Chip.plainReadLine
  split
  · exact (refl c).alert Code.PLAIN_BOUNDS noUnit 0
  · extract_lets counted rs dies bad corrected marked bytes
    have hcounted : Accessed c counted := (refl c).tallyAdd _ _
    split
    · have hcorrected : Accessed c corrected := by
        unfold corrected
        split
        · exact hcounted
        · exact hcounted.trans (of_plainCe _ _ _)
      show Accessed c marked
      unfold marked
      split
      · exact hcorrected.trans (of_plainUe _ _ _)
      · exact hcorrected
    · cases who with
      | scrub => exact hcounted
      | host => exact (hcounted.raise _).set _ _
      | engine => exact ((hcounted.raise _).set _ _).alertOnce _ _ _

theorem of_plainReadLines (who : PlainReader) (a n : Nat) (c : Chip) : Accessed c (Chip.plainReadLines who a n c).2 := by
  induction n generalizing a c with
  | zero => exact refl c
  | succ n ih => exact trans (of_plainReadLine c who a) (ih _ _)

theorem of_plainWriteLine (c : Chip) (a : Nat) (bs : List MByte) : Accessed c (c.plainWriteLine a bs) := by
  unfold Chip.plainWriteLine
  extract_lets stored counted unmapped logged
  split
  · exact alertOnce (by rfl) _ _ _
  · rfl

theorem of_plainEngineWrite (c : Chip) (a : Nat) (bs : List MByte) : Accessed c (c.plainEngineWrite a bs) := by
  unfold Chip.plainEngineWrite
  split
  · exact (refl c).alert _ _ _
  · exact of_plainWriteLine c a bs

theorem of_plainWriteLines (c : Chip) (a n : Nat) (bs : List MByte) : Accessed c (c.plainWriteLines a n bs) := by
  induction n generalizing c a bs with
  | zero => exact refl c
  | succ n ih => exact trans (of_plainEngineWrite c a _) (ih _ _ _)

/-! ### Any memory -/

theorem of_memRead (c : Chip) (who : PlainReader) (mem off n : Nat) : Accessed c (c.memRead who mem off n).2 := by
  unfold Chip.memRead
  extract_lets n'
  split
  · split
    · exact refl c
    · exact of_plainReadLines _ _ _ c
  · exact of_sramRead _ _ _ c

theorem of_memWrite (c : Chip) (mem off : Nat) (bs : List MByte) : Accessed c (c.memWrite mem off bs) := by
  unfold Chip.memWrite
  extract_lets bs'
  split
  · exact of_plainWriteLines c _ _ _
  · rfl

/-! ### A Mover's accesses through the fabric (R619) -/

theorem of_countAborts (n : Nat) (c : Chip) : Accessed c (Chip.countAborts n c) := by
  induction n generalizing c with
  | zero => exact refl c
  | succ n ih => exact trans (by rfl) (ih _)

theorem of_fabRead (c : Chip) (mem off n : Nat) : Accessed c (c.fabRead mem off n).2 := by
  unfold Chip.fabRead
  split
  · exact of_countAborts _ c
  · exact of_memRead c _ _ _ _

theorem of_movWrite (c : Chip) (m mem off : Nat) (bs : List MByte) : Accessed c (c.movWrite m mem off bs) := by
  refine tallyAdd ?_ _ _
  unfold Chip.fabWrite
  split
  · exact of_countAborts _ c
  · exact of_memWrite c _ _ _

/-! ### Pushes to a queue (R476, R479) -/

theorem of_qWrite (c : Chip) (q off n v : Nat) : Accessed c (c.qWrite q off n v) := of_memWrite c _ _ _

theorem qEvent {c d : Chip} (h : Accessed c d) (q status : Nat) : Accessed c (d.qEvent q status) := h.trans rfl

theorem of_qOpen (c : Chip) (q : Nat) : Accessed c (c.qOpen q).2 := by
  have hread := of_memRead c .engine 0 (32 * q) 32
  unfold Chip.qOpen
  dsimp only
  split
  · exact hread
  · split
    · exact (((hread.trans (of_qWrite _ _ _ _ _)).raise _).alert _ _ _).qEvent _ _
    · exact hread

theorem of_qNotActive (c : Chip) (q : Nat) : Accessed c (c.qNotActive q) :=
  (((refl c).raise _).alertOnce _ _ _).qEvent _ _

theorem of_qDrop (c : Chip) (q : Nat) (d : List Byte) (status : Nat) : Accessed c (c.qDrop q d status) :=
  ((of_qWrite c _ _ _ _).raise _).qEvent _ _

theorem of_qAppend (c : Chip) (q : Nat) (d : List Byte) (el : List MByte) : Accessed c (c.qAppend q d el) :=
  ((of_memWrite c _ _ _).trans (of_qWrite _ _ _ _ _)).trans (of_qWrite _ _ _ _ _)

theorem of_qPushOpen (c : Chip) (q : Nat) (d : List Byte) (el : List MByte) (waits : Bool) :
    Accessed c (c.qPushOpen q d el waits).2 := by
  unfold Chip.qPushOpen
  split
  · exact (of_qNotActive c q).raise _
  · split
    · exact of_qDrop c q d 4
    · split
      · exact ((refl c).raise _).qEvent _ _
      · split
        · exact (of_qDrop c q d 9).alertOnce _ _ _
        · split
          · exact (of_qDrop c q d 2).alertOnce _ _ _
          · split
            · split
              · exact ((of_qDrop c q d 0).trans (of_qWrite _ _ _ _ _)).trans (of_qAppend _ _ _ _)
              · split
                · exact (refl c).qEvent _ _
                · exact (of_qDrop c q d 1).alertOnce _ _ _
            · exact of_qAppend c q d el

theorem of_qPush (c : Chip) (q : Nat) (el : List MByte) (waits : Bool) : Accessed c (c.qPush q el waits).2 := by
  have hopen := ((refl c).tallyAdd F.Q_OPS.COUNT 1).trans (of_qOpen _ q)
  unfold Chip.qPush
  split <;> rename_i heq <;> rw [heq] at hopen
  · exact hopen.raise _
  · exact hopen.trans (of_qPushOpen _ _ _ _ _)

theorem of_lanePush (c : Chip) (lane q : Nat) (el : List MByte) : Accessed c (c.lanePush lane q el) := by
  have hpush := of_qPush c q el true
  unfold Chip.lanePush
  dsimp only
  split
  · exact hpush.trans rfl
  · exact hpush

end Chip.Accessed

end Sys2Proof.Machine
end

section
/-!
PROOFS. The Movers' passes complete (O34).
-/
namespace Sys2Proof.Machine

/-! ### COPY and FILL (R423, R426), and what COMBINE reads (R360) -/

namespace Chip.Accessed

theorem of_readAll (mem x : Nat) (as : List Nat) (c : Chip) : Accessed c (Chip.readAll mem x as c).2 := by
  induction as generalizing c with
  | nil => exact refl c
  | cons a as ih => exact (of_fabRead c mem a x).trans (ih _)

theorem of_writeAll (m mem : Nat) (down : Bool) (limit : Option Nat) (rows : List (Nat × List MByte)) (c : Chip) :
    Accessed c (Chip.writeAll m mem down limit rows c) := by
  induction rows generalizing limit c with
  | nil => exact refl c
  | cons r rows ih => exact (of_movWrite c m mem _ _).trans (ih _ _)

theorem of_copyOnce (m : Nat) (d : MDesc) (limit : Option Nat) (i : Nat) (c : Chip) :
    Accessed c (Chip.copyOnce m d limit i c) := (of_readAll _ _ _ c).trans (of_writeAll _ _ _ _ _ _)

theorem of_fillOnce (m : Nat) (d : MDesc) (limit : Option Nat) (i : Nat) (c : Chip) :
    Accessed c (Chip.fillOnce m d limit i c) := of_writeAll _ _ _ _ _ c

theorem of_combineOne (r : LayerRec) (q : CombineParam) (rec : List Byte) (s : List Elt × Chip) (i : Nat) :
    Accessed s.2 (Chip.combineOne r q rec s i).2 := by
  unfold Chip.combineOne
  dsimp only
  split
  · split
    · exact refl _
    · exact of_fabRead _ _ _ _
  · exact refl _

end Chip.Accessed

/-! ### GATHER and COMBINE, which may mark their unit (R427, R361) -/

/-- The route record of token `i` of a COMBINE call is that of this frame (R361). -/
def Chip.ownRecord (c : Chip) (frame : Nat) (q : CombineParam) (i : Nat) : Bool :=
  let rec_ := bytesOf (c.fabRead 0 (q.records + 40 * i) 40).1
  leAt rec_ 0 2 == 1024 * (q.first + i / q.tokens) + i % q.tokens && leAt rec_ 5 1 == frame % 256

/-- R361: a token whose record is not this frame's marks the unit. -/
theorem Chip.combineToken_fst (m frame : Nat) (r : LayerRec) (q : CombineParam) (s : UnitRun × Chip) (i : Nat) :
    (Chip.combineToken m frame r q s i).1 = if s.2.ownRecord frame q i then s.1 else { s.1 with tainted := true } := rfl

/-- Work on a unit and the chip: of the unit it changes what it has been told and whether it is marked, of the chip what accesses
write. -/
def UnitWork (s t : UnitRun × Chip) : Prop :=
  t.1 = { s.1 with told := t.1.told, tainted := t.1.tainted } ∧ Chip.Accessed s.2 t.2

namespace UnitWork

theorem refl (s : UnitRun × Chip) : UnitWork s s := ⟨rfl, .refl _⟩

theorem trans {s t w : UnitRun × Chip} (h : UnitWork s t) (k : UnitWork t w) : UnitWork s w := by
  obtain ⟨hunit, hchip⟩ := h
  obtain ⟨kunit, kchip⟩ := k
  refine ⟨?_, hchip.trans kchip⟩
  rw [kunit, hunit]

theorem of_accessed {c d : Chip} (u : UnitRun) (h : Chip.Accessed c d) : UnitWork (u, c) (u, d) := ⟨rfl, h⟩

theorem foldl {α : Type} {f : UnitRun × Chip → α → UnitRun × Chip} (hf : ∀ s a, UnitWork s (f s a)) (as : List α)
    (s : UnitRun × Chip) : UnitWork s (as.foldl f s) :=
  foldl_keeps (UnitWork s) f (fun _ a h => h.trans (hf _ a)) as s (refl s)

theorem of_gatherRange (c : Chip) (m idx : Nat) (u : UnitRun) : UnitWork (u, c) (c.gatherRange m idx u) := by
  have hlogged := ((Chip.Accessed.refl c).set (F.MOV_GATHER_LOG.INDEX.mov m) idx).raise F.MEM_EVENTS.GATHER_RANGE
  refine ⟨rfl, ?_⟩
  unfold Chip.gatherRange
  dsimp only
  split
  · exact hlogged
  · exact hlogged.alert _ _ _

theorem of_gatherRow (m : Nat) (d : MDesc) (limit : Option Nat) (i : Nat) (row : Option Nat × Nat × Nat)
    (s : UnitRun × Chip) : UnitWork s (Chip.gatherRow m d limit i row s) := by
  obtain ⟨u, c⟩ := s
  unfold Chip.gatherRow
  dsimp only
  split
  · exact of_accessed u (.of_movWrite c _ _ _ _)
  · split
    · exact of_accessed u (.of_movWrite c _ _ _ _)
    · split
      · exact of_gatherRange c m _ u
      · exact of_accessed u ((Chip.Accessed.of_fabRead c _ _ _).trans (.of_movWrite _ _ _ _ _))

theorem of_gatherRows (m : Nat) (d : MDesc) (i : Nat) (idx : List (Option Nat)) (limit : Option Nat) (rows : List (Nat × Nat))
    (s : UnitRun × Chip) : UnitWork s (Chip.gatherRows m d i idx limit rows s) := by
  induction rows generalizing limit s with
  | nil => exact refl s
  | cons r rows ih =>
    unfold Chip.gatherRows
    split
    · exact refl s
    · exact (of_gatherRow _ _ _ _ _ s).trans (ih _ _)

theorem of_gatherOnce (m : Nat) (d : MDesc) (limit : Option Nat) (i : Nat) (s : UnitRun × Chip) :
    UnitWork s (Chip.gatherOnce m d limit i s) :=
  (of_accessed s.1 (.of_readAll _ _ _ s.2)).trans (of_gatherRows _ _ _ _ _ _ _)

theorem of_combineToken (m frame : Nat) (r : LayerRec) (q : CombineParam) (s : UnitRun × Chip) (i : Nat) :
    UnitWork s (Chip.combineToken m frame r q s i) := by
  refine ⟨?unit, ?chip⟩
  case unit =>
    rw [Chip.combineToken_fst]
    split <;> rfl
  case chip =>
    unfold Chip.combineToken
    dsimp only
    refine .trans (.trans (.of_fabRead s.2 0 (q.records + 40 * i) 40) ?row) (.of_movWrite _ _ _ _ _)
    split
    · refine .trans ?_ (.foldl_snd (Chip.Accessed.of_combineOne r q _) _ _)
      split
      · exact .refl _
      · exact .of_fabRead _ _ _ _
    · split
      · exact .refl _
      · exact .of_fabRead _ _ _ _

theorem of_combineRun (m : Nat) (rec : UnitRec) (d : MDesc) (limit : Option Nat) (s : UnitRun × Chip) :
    UnitWork s (Chip.combineRun m rec d limit s) := by
  unfold Chip.combineRun
  dsimp only
  split
  · exact foldl (of_combineToken _ _ _ _) _ s
  · exact refl s

end UnitWork

/-! ### ROUTE and PLACE, which change a layer (R354, R367) -/

@[simp] theorem Chip.sched_setLayer (c : Chip) (old : Bool) (l : Nat) (x : Layer) : (c.setLayer old l x).sched = c.sched := by
  cases old <;> rfl

/-- Work on a layer in place is put there. -/
theorem Chip.layer_setLayer_same {c : Chip} {old : Bool} {l : Nat} {x : Layer} (h : c.layer old l = some x) (y : Layer) :
    (c.setLayer old l y).layer old l = some y := by
  obtain ⟨hlt, -⟩ := List.getElem?_eq_some_iff.mp h
  cases old <;> exact List.getElem?_set_self hlt

/-- Work of ROUTE on a layer and the chip over `n` tokens: the placement stays, and of the chip it changes what accesses write. -/
structure RouteWork (n : Nat) (s t : Layer × Chip) : Prop where
  routed : t.1.routed = s.1.routed + n
  seats : t.1.seats = s.1.seats
  banks : t.1.banks = s.1.banks
  accessed : Chip.Accessed s.2 t.2

namespace RouteWork

theorem of_accessed {c d : Chip} (x : Layer) (h : Chip.Accessed c d) : RouteWork 0 (x, c) (x, d) := ⟨rfl, rfl, rfl, h⟩

theorem trans {n k : Nat} {s t w : Layer × Chip} (h : RouteWork n s t) (g : RouteWork k t w) : RouteWork (n + k) s w where
  routed := by rw [g.routed, h.routed, Nat.add_assoc]
  seats := g.seats.trans h.seats
  banks := g.banks.trans h.banks
  accessed := h.accessed.trans g.accessed

theorem of_assign (k : RouteCall) (row : List MByte) (s : List Assign × Layer × Chip) (ew : Nat × Nat) :
    RouteWork 0 s.2 (k.assign row s ew).2 := by
  unfold RouteCall.assign
  dsimp only
  split
  · exact ⟨rfl, rfl, rfl, .of_movWrite _ _ _ _ _⟩
  · exact ⟨rfl, rfl, rfl, .refl _⟩

theorem of_assigns (k : RouteCall) (row : List MByte) (ews : List (Nat × Nat)) (s : List Assign × Layer × Chip) :
    RouteWork 0 s.2 (ews.foldl (k.assign row) s).2 :=
  foldl_keeps (fun t : List Assign × Layer × Chip => RouteWork 0 s.2 t.2) _
    (fun _ ew h => h.trans (of_assign k row _ ew)) ews s (of_accessed _ (.refl _))

/-- A row or record written after work on the layer. -/
theorem written {n : Nat} {s : Layer × Chip} {x : Layer} {d : Chip} (h : RouteWork n s (x, d)) (m mem off : Nat)
    (bs : List MByte) : RouteWork n s (x, d.movWrite m mem off bs) := h.trans (of_accessed x (.of_movWrite _ _ _ _ _))

/-- A token that lost an assignment is counted, reported and marked in its frame's records (R354). -/
theorem dropped {n : Nat} {s : Layer × Chip} {x : Layer} {d : Chip} (h : RouteWork n s (x, d)) (k frame net bit : Nat)
    (f : Fld) :
    RouteWork n s ({ x with dropped := k }, (d.raise f).markNetwork frame net bit) :=
  ⟨h.routed, h.seats, h.banks, (h.accessed.raise f).trans rfl⟩

theorem of_token (k : RouteCall) (s : Layer × Chip) (i : Nat) : RouteWork 1 s (k.token s i) := by
  obtain ⟨x, c⟩ := s
  have hread (off n : Nat) : RouteWork 1 (x, c) ({ x with routed := x.routed + 1 }, (c.fabRead 0 off n).2) :=
    ⟨rfl, rfl, rfl, .of_fabRead c 0 off n⟩
  have hfetch (b : Bool) (d : Chip) (off n : Nat) :
      Chip.Accessed d (if b then (([] : List MByte), d) else d.fabRead 0 off n).2 := by
    split
    · exact .refl d
    · exact .of_fabRead d _ _ _
  have hplaced (off n off' n' : Nat) (b : Bool) (row : List MByte) (ews : List (Nat × Nat)) :=
    ((hread off n).trans (of_accessed _ (hfetch b _ off' n'))).trans (of_assigns k row ews ([], _))
  unfold RouteCall.token
  dsimp only
  split
  · exact ((hread _ _).written _ _ _ _).trans (of_accessed _ ((Chip.Accessed.refl _).alertOnce _ _ _))
  · exact iteInduction (motive := RouteWork 1 (x, c)) (fun _ => ((hplaced _ _ _ _ _ _ _).written _ _ _ _).dropped _ _ _ _ _)
      fun _ => (hplaced _ _ _ _ _ _ _).written _ _ _ _

theorem of_tokens (k : RouteCall) (is : List Nat) (s : Layer × Chip) : RouteWork is.length s (is.foldl k.token s) := by
  induction is generalizing s with
  | nil => exact of_accessed s.1 (.refl s.2)
  | cons i is ih =>
    rw [List.length_cons, Nat.add_comm]
    exact (of_token k s i).trans (ih _)

end RouteWork

namespace Chip.Accessed

theorem of_entries (k : RouteCall) (x : Layer) (fills : List Nat) (c : Chip) (v : Nat) :
    Accessed c (k.entries x fills c v) := by
  unfold RouteCall.entries
  split
  · exact refl c
  · exact foldl (fun _ _ => foldl (fun _ _ => of_movWrite _ _ _ _ _) _ _) _ c

theorem of_counts (k : RouteCall) (x : Layer) (fills : List Nat) (c : Chip) (v : Nat) : Accessed c (k.counts x fills c v) := by
  unfold RouteCall.counts
  dsimp only
  split
  · exact refl c
  · exact foldl (fun _ _ => of_lanePush _ _ _ _) _ c

end Chip.Accessed

/-- R354, R358: a ROUTE call over a layer in place: its tokens' work on the layer is put there, then come group entries and counts. -/
theorem Chip.routeRun_of_layer {c : Chip} {u : UnitRun} {rec : UnitRec} {d : MDesc} {r : LayerRec} {x : Layer} {q : RouteParam}
    (m : Nat) (hq : q = RouteParam.ofBytes (sliceOf (moverConsts rec.body) d.p0 48))
    (hrec : (c.wiring u.old).layerRecs[q.layer]? = some r) (hlayer : c.layer u.old q.layer = some x) :
    ∃ y e, RouteWork (q.tiles * q.tokens) (x, c) (y, e) ∧
      Chip.Accessed (e.setLayer u.old q.layer y) (c.routeRun m u rec d none) := by
  subst hq
  simp only [Chip.routeRun, hrec, hlayer]
  refine ⟨_, _, ?tokens, .trans (.foldl (.of_entries _ _ _) _ _) (.foldl (.of_counts _ _ _) _ _)⟩
  simpa using RouteWork.of_tokens _ (List.range _) (x, c)

/-- All that a ROUTE call can do to the schedule: nothing. -/
@[simp] theorem Chip.sched_routeRun (c : Chip) (m : Nat) (u : UnitRun) (rec : UnitRec) (d : MDesc) :
    (c.routeRun m u rec d none).sched = c.sched := by
  cases hrec : (c.wiring u.old).layerRecs[(RouteParam.ofBytes (sliceOf (moverConsts rec.body) d.p0 48)).layer]? with
  | none => simp [Chip.routeRun, hrec]
  | some r =>
    cases hlayer : c.layer u.old (RouteParam.ofBytes (sliceOf (moverConsts rec.body) d.p0 48)).layer with
    | none => simp [Chip.routeRun, hrec, hlayer]
    | some x =>
      obtain ⟨y, e, hwork, haccess⟩ := Chip.routeRun_of_layer m rfl hrec hlayer
      rw [haccess.sched, Chip.sched_setLayer, hwork.accessed.sched]

namespace Chip.Accessed

theorem of_placeSeat (m : Nat) (r : LayerRec) (base : Nat) (s : Nat × Layer × Chip) (i : Nat) :
    Accessed s.2.2 (Chip.placeSeat m r base s i).2.2 := by
  unfold Chip.placeSeat
  dsimp only
  split
  · exact refl _
  · split
    · exact refl _
    · exact (of_fabRead _ _ _ _).trans (of_movWrite _ _ _ _ _)

theorem of_placeSeats (m : Nat) (r : LayerRec) (base : Nat) (is : List Nat) (s : Nat × Layer × Chip) :
    Accessed s.2.2 (is.foldl (Chip.placeSeat m r base) s).2.2 :=
  foldl_keeps (fun t : Nat × Layer × Chip => Accessed s.2.2 t.2.2) _ (fun _ i h => h.trans (of_placeSeat m r base _ i)) is s
    (refl _)

end Chip.Accessed

/-- R367: a PLACE run over a layer in place that is not switched: its seats' work on the layer is put there. -/
theorem Chip.placeRun_of_layer {c : Chip} {old : Bool} {l : Nat} {r : LayerRec} {x : Layer} (m most : Nat)
    (hrec : (c.wiring old).layerRecs[l]? = some r) (hlayer : c.layer old l = some x) (hswitched : x.switched = false) :
    ∃ base e, Chip.Accessed c e ∧ c.placeRun m old l most =
      e.setLayer old l ((List.range r.seats.length).foldl (Chip.placeSeat m r base) (most, x, c)).2.1 := by
  simp only [Chip.placeRun, hrec, hlayer, hswitched, Bool.false_eq_true, ↓reduceIte]
  exact ⟨_, _, .of_placeSeats m r _ _ (most, x, c), rfl⟩

/-- R367: no PLACE run copies in a tick that began with a switch. -/
theorem Chip.placeRun_of_switched {c : Chip} {old : Bool} {l : Nat} {r : LayerRec} {x : Layer} (m most : Nat)
    (hrec : (c.wiring old).layerRecs[l]? = some r) (hlayer : c.layer old l = some x) (hswitched : x.switched = true) :
    c.placeRun m old l most = c := by
  simp [Chip.placeRun, hrec, hlayer, hswitched]

/-- All that a PLACE run can do to the schedule: nothing. -/
@[simp] theorem Chip.sched_placeRun (c : Chip) (m : Nat) (old : Bool) (l most : Nat) :
    (c.placeRun m old l most).sched = c.sched := by
  cases hrec : (c.wiring old).layerRecs[l]? with
  | none => simp [Chip.placeRun, hrec]
  | some r =>
    cases hlayer : c.layer old l with
    | none => simp [Chip.placeRun, hrec, hlayer]
    | some x =>
      cases hswitched : x.switched with
      | true => rw [Chip.placeRun_of_switched m most hrec hlayer hswitched]
      | false =>
        obtain ⟨base, e, haccess, hrun⟩ := Chip.placeRun_of_layer m most hrec hlayer hswitched
        rw [hrun, Chip.sched_setLayer, haccess.sched]

/-! ### A pass that is done (R420) -/

/-- A command that does operation `op` of Mover `m` makes `d` of `c`: with no such pass begun nothing happens; else the pass is done for
the unit, which it may have told something or marked, and the schedule stays until then. -/
structure Chip.DoesPass (c : Chip) (m op : Nat) (d : Chip) : Prop where
  done : ∀ u r desc n, c.moverPass m op = some (u, r, desc, n) →
    ∃ (told : Nat) (tainted : Bool) (e : Chip),
      d = e.moverDone m { u with told := told, tainted := tainted } ∧ e.sched = c.sched
  idle : c.moverPass m op = none → d = c

theorem Chip.sched_repeatFor (f : Nat → Chip → Chip) (hf : ∀ i c, (f i c).sched = c.sched) (n : Nat) (c : Chip) :
    (Chip.repeatFor f n c).sched = c.sched :=
  foldl_keeps (fun d : Chip => d.sched = c.sched) _ (fun d i h => (hf i d).trans h) _ c rfl

theorem Chip.copy_doesPass (c : Chip) (m : Nat) : c.DoesPass m 1 (c.copy m) where
  done u r d n h := by
    simp only [Chip.copy, h]
    exact ⟨u.told, u.tainted, _, rfl, Chip.sched_repeatFor _ (fun i c => (Chip.Accessed.of_copyOnce m d none i c).sched) n c⟩
  idle h := by simp [Chip.copy, h]

theorem Chip.moverFill_doesPass (c : Chip) (m : Nat) : c.DoesPass m 2 (c.moverFill m) where
  done u r d n h := by
    simp only [Chip.moverFill, h]
    exact ⟨u.told, u.tainted, _, rfl, Chip.sched_repeatFor _ (fun i c => (Chip.Accessed.of_fillOnce m d none i c).sched) n c⟩
  idle h := by simp [Chip.moverFill, h]

/-- A unit and chip that work has changed are ready for the end of the pass. -/
theorem UnitWork.doesPass {c : Chip} {u : UnitRun} {t : UnitRun × Chip} (h : UnitWork (u, c) t) (m : Nat) :
    ∃ (told : Nat) (tainted : Bool) (e : Chip),
      t.2.moverDone m t.1 = e.moverDone m { u with told := told, tainted := tainted } ∧ e.sched = c.sched := by
  obtain ⟨hunit, hchip⟩ := h
  exact ⟨t.1.told, t.1.tainted, t.2, congrArg _ hunit, hchip.sched⟩

theorem Chip.gather_doesPass (c : Chip) (m : Nat) : c.DoesPass m 3 (c.gather m) where
  done u r d n h := by
    simp only [Chip.gather, h]
    exact (UnitWork.foldl (fun s i => UnitWork.of_gatherOnce m d none i s) _ (u, c)).doesPass m
  idle h := by simp [Chip.gather, h]

theorem Chip.route_doesPass (c : Chip) (m : Nat) : c.DoesPass m 4 (c.route m) where
  done u r d n h := by
    simp only [Chip.route, h]
    exact ⟨u.told, u.tainted, _, rfl, Chip.sched_repeatFor _ (fun _ c => c.sched_routeRun m u r d) n c⟩
  idle h := by simp [Chip.route, h]

theorem Chip.combine_doesPass (c : Chip) (m : Nat) : c.DoesPass m 5 (c.combine m) where
  done u r d n h := by
    simp only [Chip.combine, h]
    exact (UnitWork.foldl (fun s _ => UnitWork.of_combineRun m r d none s) _ (u, c)).doesPass m
  idle h := by simp [Chip.combine, h]

theorem Chip.place_doesPass (c : Chip) (m : Nat) : c.DoesPass m 6 (c.place m) where
  done u r d n h := by
    simp only [Chip.place, h]
    exact ⟨u.told, u.tainted, _, rfl, Chip.sched_repeatFor _ (fun _ c => c.sched_placeRun m u.old _ _) n c⟩
  idle h := by simp [Chip.place, h]

/-- The unit of a pass begun is its lane's. -/
theorem Chip.laneRun_of_moverPass {c : Chip} {m op : Nat} {u : UnitRun} {r : UnitRec} {d : MDesc} {n : Nat}
    (h : c.moverPass m op = some (u, r, d, n)) : c.laneRun (m + 7) = some u := by
  unfold Chip.moverPass Chip.begun at h
  cases hrun : c.laneRun (m + 7) with
  | none => simp [hrun] at h
  | some w =>
    simp only [hrun] at h
    split at h
    · cases h
    · rename_i hbegun
      split at hbegun
      · cases hbegun
      · obtain ⟨_, -, heq⟩ := Option.map_eq_some_iff.mp hbegun
        split at h <;> cases h
        cases heq
        rfl

/-- The end of a pass sends the lane's unit on to its next one. -/
theorem Chip.laneRun_moverDone {c : Chip} {m : Nat} {u : UnitRun} (h : c.laneRun (m + 7) = some u) (v : UnitRun) :
    (c.moverDone m v).laneRun (m + 7) = some { v with pass := v.pass + 1 } :=
  Chip.laneRun_setRun_same (u := u) h _

@[simp] theorem Chip.fld_setRun (c : Chip) (lane : Nat) (u : UnitRun) (f : Fld) : (c.setRun lane u).fld f = c.fld f := rfl

theorem Chip.fld_op_moverDone (c : Chip) (m : Nat) (u : UnitRun) : (c.moverDone m u).fld (F.MOV_STATUS.OP.mov m) = 0 := by
  rw [Chip.moverDone, Chip.fld_setRun, Chip.setBit, Chip.fld_set_apart _ _ (by simp [Fld.apart]),
    Chip.fld_set_same _ _ _ (by simp), Nat.zero_mod]

theorem Chip.fld_descending_moverDone (c : Chip) (m : Nat) (u : UnitRun) :
    (c.moverDone m u).fld (F.MOV_STATUS.DESCENDING.mov m) = 0 := by
  rw [Chip.moverDone, Chip.fld_setRun, Chip.fld_setBit_same _ _ rfl (by simp), Bool.toNat_false]

end Sys2Proof.Machine

namespace Sys2Proof
open Machine

/-- A command whose effect does a pass of its operation. -/
theorem completes_of_doesPass {i : Instr} {s : State} {m op : Nat} (f : Chip → Chip)
    (harm : exec i s = act i (fun _ c => f c) s) (hwf : i.wf = true) (hdoes : s.chip.DoesPass m op (f s.chip)) :
    (∀ u r d n, s.chip.moverPass m op = some (u, r, d, n) → Completes i s fun c =>
      (∃ v, c.laneRun (m + 7) = some v ∧ v.entry = u.entry ∧ v.pass = u.pass + 1 ∧ v.counts = u.counts) ∧
      c.fld (F.MOV_STATUS.OP.mov m) = 0 ∧ c.fld (F.MOV_STATUS.DESCENDING.mov m) = 0) ∧
    (s.chip.moverPass m op = none → Completes i s fun c => c = s.chip) := by
  refine ⟨fun u r d n hpass => completes_of_act (fun _ c => f c) harm hwf ?_,
    fun hnone => completes_of_act (fun _ c => f c) harm hwf (hdoes.idle hnone)⟩
  obtain ⟨told, tainted, e, hdone, hsched⟩ := hdoes.done u r d n hpass
  have hrun : e.laneRun (m + 7) = some u := (Chip.laneRun_congr hsched _).trans (Chip.laneRun_of_moverPass hpass)
  rw [hdone]
  exact ⟨⟨_, Chip.laneRun_moverDone hrun _, rfl, rfl, rfl⟩, e.fld_op_moverDone m _, e.fld_descending_moverDone m _⟩

/-- Settles O34: every one of the six commands does the pass of its operation. -/
theorem moverPassesComplete : Obligations.MoverPassesComplete := by
  intro s m op i hm hop
  have hwf : decide (m < 2) = true := by simpa using hm
  simp only [List.mem_cons, Prod.mk.injEq, List.not_mem_nil, or_false] at hop
  rcases hop with ⟨rfl, rfl⟩ | ⟨rfl, rfl⟩ | ⟨rfl, rfl⟩ | ⟨rfl, rfl⟩ | ⟨rfl, rfl⟩ | ⟨rfl, rfl⟩
  · exact completes_of_doesPass (·.copy m) rfl hwf (s.chip.copy_doesPass m)
  · exact completes_of_doesPass (·.moverFill m) rfl hwf (s.chip.moverFill_doesPass m)
  · exact completes_of_doesPass (·.gather m) rfl hwf (s.chip.gather_doesPass m)
  · exact completes_of_doesPass (·.route m) rfl hwf (s.chip.route_doesPass m)
  · exact completes_of_doesPass (·.combine m) rfl hwf (s.chip.combine_doesPass m)
  · exact completes_of_doesPass (·.place m) rfl hwf (s.chip.place_doesPass m)

end Sys2Proof
end

section
/-!
PROOFS. What a token selects, and what ROUTE, COMBINE and PLACE do to a layer and a unit (O36).
-/
namespace Sys2Proof.Machine

/-! ### Selection (R354) -/

/-- Inserting by score only orders: no candidate is lost or made. -/
theorem insertScore_perm (x : Nat × Nat) (ys : List (Nat × Nat)) : (insertScore x ys).Perm (x :: ys) := by
  induction ys with
  | nil => exact .refl _
  | cons y ys ih =>
    unfold insertScore
    split
    · exact .refl _
    · exact (ih.cons y).trans (.swap x y ys)

theorem foldl_insertScore_perm (xs ys : List (Nat × Nat)) : (xs.foldl (fun s x => insertScore x s) ys).Perm (xs ++ ys) := by
  induction xs generalizing ys with
  | nil => exact .refl _
  | cons x xs ih => exact (ih _).trans (((insertScore_perm x ys).append_left xs).trans List.perm_middle)

/-- The candidates of a token, best first: the experts whose gate score is not below τ, each with its score. -/
def candidates (tau : Nat) (g : List Nat) : List (Nat × Nat) :=
  (g.zipIdx.filter fun x => !FE.lt x.1 tau).foldl (fun s x => insertScore x s) []

theorem selectExperts_eq (kmax tau : Nat) (g : List Nat) : selectExperts kmax tau g =
    ((List.range g.length).filter (((candidates tau g).take kmax).map (·.2)).contains,
      decide (kmax < (candidates tau g).length)) := rfl

theorem candidates_perm (tau : Nat) (g : List Nat) :
    (candidates tau g).Perm (g.zipIdx.filter fun x => !FE.lt x.1 tau) :=
  (foldl_insertScore_perm _ []).trans (.of_eq (List.append_nil _))

theorem length_candidates (tau : Nat) (g : List Nat) :
    (candidates tau g).length = (g.filter fun x => !FE.lt x tau).length := by
  have hscores := congrArg List.length (List.filter_map (f := Prod.fst) (p := fun x => !FE.lt x tau) (l := g.zipIdx))
  rw [List.zipIdx_map_fst, List.length_map] at hscores
  exact (candidates_perm tau g).length_eq.trans hscores.symm

theorem score_of_candidate {tau : Nat} {g : List Nat} {x : Nat × Nat} (h : x ∈ candidates tau g) :
    FE.lt (g.getD x.2 0) tau = false := by
  obtain ⟨hmem, hscore⟩ := List.mem_filter.mp ((candidates_perm tau g).mem_iff.mp h)
  have hget : g[x.2]? = some x.1 := List.mem_zipIdx_iff_getElem?.mp hmem
  rw [List.getD_eq_getElem?_getD, hget, Option.getD_some]
  simpa using hscore

theorem mem_selectExperts {kmax tau : Nat} {g : List Nat} {e : Nat} :
    e ∈ (selectExperts kmax tau g).1 ↔ e < g.length ∧ e ∈ ((candidates tau g).take kmax).map (·.2) := by
  rw [selectExperts_eq, List.mem_filter, List.mem_range, List.contains_iff_mem]

theorem pairwise_selectExperts (kmax tau : Nat) (g : List Nat) : (selectExperts kmax tau g).1.Pairwise (· < ·) :=
  List.pairwise_lt_range.filter _

theorem length_selectExperts_le (kmax tau : Nat) (g : List Nat) : (selectExperts kmax tau g).1.length ≤ kmax := by
  have hnodup : (selectExperts kmax tau g).1.Nodup := List.nodup_range.filter _
  have hchosen : (selectExperts kmax tau g).1 ⊆ ((candidates tau g).take kmax).map (·.2) :=
    fun e he => (mem_selectExperts.mp he).2
  calc (selectExperts kmax tau g).1.length
      ≤ (((candidates tau g).take kmax).map (·.2)).length := List.Nodup.length_le_of_subset hnodup hchosen
    _ ≤ kmax := by
      rw [List.length_map, List.length_take]
      exact Nat.min_le_left _ _

theorem score_of_selected {kmax tau : Nat} {g : List Nat} {e : Nat} (h : e ∈ (selectExperts kmax tau g).1) :
    e < g.length ∧ FE.lt (g.getD e 0) tau = false := by
  obtain ⟨hlt, hchosen⟩ := mem_selectExperts.mp h
  obtain ⟨x, hx, rfl⟩ := List.mem_map.mp hchosen
  exact ⟨hlt, score_of_candidate (List.mem_of_mem_take hx)⟩

/-! ### One iteration of a pass -/

theorem Chip.layer_moverDone (c : Chip) (m : Nat) (u : UnitRun) (old : Bool) (l : Nat) :
    (c.moverDone m u).layer old l = c.layer old l := by
  cases old <;> rfl

section
variable {c : Chip} {m : Nat} {u : UnitRun} {r : UnitRec} {d : MDesc}

theorem Chip.route_once (h : c.moverPass m 4 = some (u, r, d, 1)) : c.route m = (c.routeRun m u r d none).moverDone m u := by
  simp [Chip.route, h, Chip.repeatFor]

theorem Chip.combine_once (h : c.moverPass m 5 = some (u, r, d, 1)) : c.combine m =
    (Chip.combineRun m r d none (u, c)).2.moverDone m (Chip.combineRun m r d none (u, c)).1 := by
  simp [Chip.combine, h]

theorem Chip.place_once (h : c.moverPass m 6 = some (u, r, d, 1)) : c.place m =
    (c.placeRun m u.old (placeParam r d).1 (placeParam r d).2).moverDone m u := by
  simp [Chip.place, h, Chip.repeatFor]

/-- R354, R364: a ROUTE pass counts every token of its tiles as routed in its layer, whose placement stays. -/
theorem Chip.layer_route {l : LayerRec} {x : Layer} {q : RouteParam} (h : c.moverPass m 4 = some (u, r, d, 1))
    (hq : q = RouteParam.ofBytes (sliceOf (moverConsts r.body) d.p0 48))
    (hrec : (c.wiring u.old).layerRecs[q.layer]? = some l) (hlayer : c.layer u.old q.layer = some x) :
    ∃ y, (c.route m).layer u.old q.layer = some y ∧ y.routed = x.routed + q.tiles * q.tokens ∧ y.seats = x.seats ∧
      y.banks = x.banks := by
  obtain ⟨y, e, hwork, haccess⟩ := Chip.routeRun_of_layer m hq hrec hlayer
  refine ⟨y, ?_, hwork.routed, hwork.seats, hwork.banks⟩
  rw [Chip.route_once h, Chip.layer_moverDone, haccess.layer]
  exact Chip.layer_setLayer_same ((hwork.accessed.layer _ _).trans hlayer) y

/-- R361: a COMBINE pass over one token marks its unit when the token's record is not this frame's. -/
theorem Chip.laneRun_combine {l : LayerRec} {q : CombineParam} (h : c.moverPass m 5 = some (u, r, d, 1))
    (hq : q = CombineParam.ofBytes (sliceOf (moverConsts r.body) d.p0 32))
    (hrec : (c.wiring u.old).layerRecs[q.layer]? = some l) (htiles : q.tiles = 1) (htokens : q.tokens = 1) :
    ∃ v, (c.combine m).laneRun (m + 7) = some v ∧
      v.tainted = (u.tainted || !c.ownRecord (c.runFrame u.ofs) q 0) := by
  have hrun : Chip.combineRun m r d none (u, c) = Chip.combineToken m (c.runFrame u.ofs) l q (u, c) 0 := by
    subst hq
    simp [Chip.combineRun, hrec, htiles, htokens]
  obtain ⟨-, haccess⟩ := UnitWork.of_combineRun m r d none (u, c)
  have hlane := (Chip.laneRun_congr haccess.sched _).trans (Chip.laneRun_of_moverPass h)
  rw [Chip.combine_once h]
  refine ⟨_, Chip.laneRun_moverDone hlane _, ?_⟩
  rw [hrun, Chip.combineToken_fst]
  cases c.ownRecord (c.runFrame u.ofs) q 0 <;> simp

end

/-! ### PLACE (R367) -/

theorem natAt_setNat_same (xs : List Nat) (i v : Nat) : natAt (setNat xs i v) i = v := by
  have hlt : i < (xs ++ List.replicate (i + 1 - xs.length) 0).length := by simp; omega
  simp [natAt, setNat, List.getD_eq_getElem?_getD, List.getElem?_set_self hlt]

/-- A pending seat has that much more copied as is left of the run and of its weights. -/
theorem Chip.copied_placeSeat {x : Layer} {i e : Nat} (m : Nat) (r : LayerRec) (base left : Nat) (c : Chip)
    (h : (x.pending.bind fun p : List (Option Nat) => p.getD i none) = some e) :
    natAt (Chip.placeSeat m r base (left, x, c) i).2.1.copied i =
      natAt x.copied i + min left (r.wsize - natAt x.copied i) := by
  simp only [Chip.placeSeat, h]
  split
  · next hnone => rw [hnone, Nat.add_zero]
  · exact natAt_setNat_same _ _ _

section
variable {c : Chip} {m : Nat} {u : UnitRun} {r : UnitRec} {d : MDesc} {l : LayerRec} {x : Layer}
  (h : c.moverPass m 6 = some (u, r, d, 1)) (hrec : (c.wiring u.old).layerRecs[(placeParam r d).1]? = some l)
  (hlayer : c.layer u.old (placeParam r d).1 = some x)
include h hrec hlayer

/-- R367: a PLACE pass over a layer of one seat copies of its pending expert what BYTES_MAX lets it. -/
theorem Chip.layer_place {e : Nat} (hseat : l.seats.length = 1) (hswitched : x.switched = false)
    (hpending : x.pending = some [some e]) :
    ∃ y, (c.place m).layer u.old (placeParam r d).1 = some y ∧
      natAt y.copied 0 = natAt x.copied 0 + min (placeParam r d).2 (l.wsize - natAt x.copied 0) := by
  obtain ⟨base, f, haccess, hrun⟩ := Chip.placeRun_of_layer m (placeParam r d).2 hrec hlayer hswitched
  rw [Chip.place_once h, hrun, Chip.layer_moverDone, hseat]
  exact ⟨_, Chip.layer_setLayer_same ((haccess.layer _ _).trans hlayer) _,
    Chip.copied_placeSeat m l base _ c (by rw [hpending]; rfl)⟩

/-- R367: a PLACE pass copies nothing in a tick that began with a switch. -/
theorem Chip.place_of_switched (hswitched : x.switched = true) : c.place m = c.moverDone m u := by
  rw [Chip.place_once h, Chip.placeRun_of_switched m _ hrec hlayer hswitched]

end

end Sys2Proof.Machine

namespace Sys2Proof
open Machine

section
variable {s : State} {post : Chip → Prop} {m : Nat} (hm : m < 2)
include hm

theorem completes_route (h : post (s.chip.route m)) : Completes (.route m) s post :=
  completes_of_act (fun _ c => c.route m) rfl (by simpa [Instr.wf] using hm) h

theorem completes_combine (h : post (s.chip.combine m)) : Completes (.combine m) s post :=
  completes_of_act (fun _ c => c.combine m) rfl (by simpa [Instr.wf] using hm) h

theorem completes_place (h : post (s.chip.place m)) : Completes (.place m) s post :=
  completes_of_act (fun _ c => c.place m) rfl (by simpa [Instr.wf] using hm) h

end

/-- Settles O36: the selection through its candidates, each pass through the one iteration that it runs. -/
theorem expertPassesSelectAndCopy : Obligations.ExpertPassesSelectAndCopy := by
  refine ⟨fun kmax tau g => ⟨length_selectExperts_le kmax tau g, pairwise_selectExperts kmax tau g,
      fun e => score_of_selected, ?clamped⟩,
    fun s m u r d hm => ⟨fun hpass l x hrec hlayer => completes_route hm (Chip.layer_route hpass rfl hrec hlayer),
      fun hpass l hrec htiles htokens => completes_combine hm ?combined,
      fun hpass l x hrec hlayer hseat =>
        ⟨fun e hswitched hpending => completes_place hm (Chip.layer_place hpass hrec hlayer hseat hswitched hpending),
          fun hswitched => completes_place hm ?switched⟩⟩⟩
  case clamped => rw [selectExperts_eq, decide_eq_true_iff, length_candidates]
  case combined =>
    obtain ⟨v, hlane, htainted⟩ := Chip.laneRun_combine hpass rfl hrec htiles htokens
    refine ⟨v, hlane, ?_⟩
    simpa [Chip.ownRecord] using htainted
  case switched =>
    rw [Chip.place_of_switched hpass hrec hlayer hswitched]
    exact ⟨rfl, rfl⟩

end Sys2Proof
end

section
/-!
PROOFS. What one row of COPY, FILL and GATHER stores (O35).
-/
namespace Sys2Proof.Machine

/-! ### A read answers as many bytes as it is asked for -/

@[simp] theorem length_beyond (n : Nat) : (beyond n).length = n := List.length_replicate

@[simp] theorem Chip.length_sramRead (fault : Bool) (k n : Nat) (c : Chip) : (Chip.sramRead fault k n c).1.length = n := by
  induction n generalizing k c with
  | zero => rfl
  | succ n ih => exact congrArg (· + 1) (ih _ _)

@[simp] theorem length_rsFix (ss : List Byte) (d : Nat) (e : Byte) : (rsFix ss d e).length = ss.length := List.length_mapIdx

/-- A codeword of ten symbols decodes to eight, whatever was found (R440, R442). -/
theorem length_syms_rsDecode (lost : Option Nat) {ss : List Byte} (h : ss.length = 10) :
    (rsDecode lost ss).syms.length = 8 := by
  unfold rsDecode
  split
  · dsimp only
    split
    · split <;> simp [h]
    · split <;> simp [h]
  · dsimp only
    split <;> simp [h]

theorem Mem.length_codeword (m : Mem) (a j : Nat) : (m.codeword a j).length = 10 := by
  simp [Mem.codeword]

theorem Mem.length_lineDecode (m : Mem) (lost : Option Nat) (a : Nat) (f : RsResult → Byte → MByte) :
    ((m.lineDecode lost a).flatMap fun r => r.syms.map (f r)).length = 64 := by
  have hsum : ((List.range 8).map fun _ => 8).sum = 64 := by decide
  simpa only [Mem.lineDecode, List.length_flatMap, List.map_map, Function.comp_def, List.length_map,
    length_syms_rsDecode lost (m.length_codeword a _)] using hsum

theorem Chip.length_plainReadLine (c : Chip) (who : PlainReader) (a : Nat) : (c.plainReadLine who a).1.length = 64 := by
  unfold Chip.plainReadLine
  split
  · exact List.length_replicate
  · dsimp only
    split
    · exact Mem.length_lineDecode _ _ _ fun r b => ⟨b, r.outcome = .uncorrectable⟩
    · cases who <;> simp

theorem Chip.length_plainReadLines (who : PlainReader) (a n : Nat) (c : Chip) :
    (Chip.plainReadLines who a n c).1.length = 64 * n := by
  induction n generalizing a c with
  | zero => rfl
  | succ n ih =>
    simp only [Chip.plainReadLines, List.length_append, Chip.length_plainReadLine, ih]
    omega

@[simp] theorem Chip.length_memRead (c : Chip) (who : PlainReader) (mem off n : Nat) :
    (c.memRead who mem off n).1.length = n := by
  unfold Chip.memRead
  extract_lets n' first lines
  have hle : n' ≤ n := Nat.min_le_left _ _
  split
  · split
    · exact length_beyond n
    · simp only [List.length_append, List.length_take, List.length_drop, Chip.length_plainReadLines, length_beyond]
      omega
  · simp only [List.length_append, Chip.length_sramRead, length_beyond]
    omega

@[simp] theorem Chip.length_fabRead (c : Chip) (mem off n : Nat) : (c.fabRead mem off n).1.length = n := by
  unfold Chip.fabRead
  split
  · exact List.length_replicate
  · exact Chip.length_memRead _ _ _ _ _

/-! ### A read leaves the stored cells and the fabric -/

/-- A read may have made `d` of `c`: registers and counts, faults, records and the waiting write-backs may differ, nothing else. -/
def Chip.OnlyRead (c d : Chip) : Prop :=
  d = { c with regs := d.regs, tally := d.tally, faults := d.faults, once := d.once, egress := d.egress,
               mem := { c.mem with writeBack := d.mem.writeBack } }

namespace Chip.OnlyRead

section
variable {c d e : Chip}

theorem refl (c : Chip) : OnlyRead c c := rfl

theorem trans (h : OnlyRead c d) (k : OnlyRead d e) : OnlyRead c e := by
  unfold OnlyRead at *
  rw [k, h]

theorem foldl {α : Type} {f : Chip → α → Chip} (hf : ∀ c a, OnlyRead c (f c a)) (as : List α) (c : Chip) :
    OnlyRead c (as.foldl f c) :=
  foldl_keeps (OnlyRead c) f (fun _ a h => h.trans (hf _ a)) as c (refl c)

theorem set (h : OnlyRead c d) (f : Fld) (x : Nat) : OnlyRead c (d.set f x) := h.trans rfl

theorem raise (h : OnlyRead c d) (f : Fld) : OnlyRead c (d.raise f) := h.set f 1

theorem tallyAdd (h : OnlyRead c d) (f : Fld) (n : Nat) : OnlyRead c (d.tallyAdd f n) := h.trans rfl

theorem count (h : OnlyRead c d) (f : Fld) (n : Nat) : OnlyRead c (d.count f n) := h.set f _

theorem alert (h : OnlyRead c d) (code unit detail : Nat) : OnlyRead c (d.alert code unit detail) := by
  refine h.trans ?_
  unfold OnlyRead
  rw [Chip.alert_eq]

theorem alertOnce (h : OnlyRead c d) (code unit detail : Nat) : OnlyRead c (d.alertOnce code unit detail) := by
  refine h.trans ?_
  unfold OnlyRead
  rw [Chip.alertOnce_eq]

theorem data (h : OnlyRead c d) : d.mem.data = c.mem.data := by rw [h]

theorem byte (h : OnlyRead c d) (k : Nat) : d.mem.byte k = c.mem.byte k := by simp only [Mem.byte, h.data]

theorem memDown (h : OnlyRead c d) (mem : Nat) : d.memDown mem = c.memDown mem := by
  have hfabric : d.fabric = c.fabric := by rw [h]
  simp only [Chip.memDown, Chip.laneDown, hfabric]

end

theorem of_ceRate (c : Chip) (count threshold : Fld) (code : Nat) : OnlyRead c (c.ceRate count threshold code) := by
  unfold Chip.ceRate
  split
  · exact ((refl c).raise _).alertOnce _ _ _
  · exact refl c

theorem of_sramCe (c : Chip) (k : Nat) (v : Byte) : OnlyRead c (c.sramCe k v) := by
  have hqueued : OnlyRead c { c with mem := { c.mem with writeBack := c.mem.writeBack ++ [(k, v)] } } := rfl
  exact ((hqueued.tallyAdd _ _).raise _ |>.set _ _ |>.set _ _ |>.set _ _ |>.set _ _).trans (of_ceRate _ _ _ _)

theorem of_sramUe (c : Chip) (k : Nat) (fault : Bool) : OnlyRead c (c.sramUe k fault) := by
  have hlogged := ((refl c).tallyAdd F.ECC_SRAM_COUNT.UE 1).raise F.ECC_EVENTS.SRAM_UE |>.set F.ECC_SRAM_LOG.VALID 1
    |>.set F.ECC_SRAM_LOG.MEM (k / 0x100000000) |>.set F.ECC_SRAM_LOG.UE 1 |>.set F.ECC_SRAM_LOG.OFFSET (k % 0x100000000)
  exact iteInduction (fun _ => hlogged.alertOnce _ _ _) fun _ => hlogged

theorem of_sramRead (fault : Bool) (k n : Nat) (c : Chip) : OnlyRead c (Chip.sramRead fault k n c).2 := by
  induction n generalizing k c with
  | zero => exact refl c
  | succ n ih =>
    unfold Chip.sramRead
    refine trans ?_ (ih _ _)
    split
    · exact refl c
    · exact of_sramCe c _ _
    · exact of_sramUe c _ _

theorem of_plainCe (c : Chip) (a : Nat) (dies : List Nat) : OnlyRead c (c.plainCe a dies) := by
  have hcounted := (((refl c).tallyAdd F.ECC_PLAIN_COUNT.CE 1).raise F.ECC_EVENTS.CE).trans
    (foldl (fun d die => (refl d).count (F.ECC_DIE_CE.CURRENT.el die) 1) dies _)
  exact (hcounted.set _ _ |>.set _ _ |>.set _ _ |>.set _ _).trans (of_ceRate _ _ _ _)

theorem of_plainUe (c : Chip) (a : Nat) (fault : Bool) : OnlyRead c (c.plainUe a fault) := by
  have hlogged := ((refl c).tallyAdd F.ECC_PLAIN_COUNT.UE 1).raise F.ECC_EVENTS.PLAIN_UE |>.set F.ECC_PLAIN_LOG.VALID 1
    |>.set F.ECC_PLAIN_LOG.UE 1 |>.set F.ECC_PLAIN_LOG.DIE 0xF |>.set F.ECC_PLAIN_LOG.LINE a
  exact iteInduction (fun _ => hlogged.alertOnce _ _ _) fun _ => hlogged

theorem of_plainReadLine (c : Chip) (who : PlainReader) (a : Nat) : OnlyRead c (c.plainReadLine who a).2 := by
  unfold Chip.plainReadLine
  split
  · exact (refl c).alert Code.PLAIN_BOUNDS noUnit 0
  · extract_lets counted rs dies bad corrected marked bytes
    have hcounted : OnlyRead c counted := (refl c).tallyAdd _ _
    split
    · have hcorrected : OnlyRead c corrected :=
        iteInduction (fun _ => hcounted) fun _ => hcounted.trans (of_plainCe _ _ _)
      exact iteInduction (motive := OnlyRead c) (fun _ => hcorrected.trans (of_plainUe _ _ _)) fun _ => hcorrected
    · cases who with
      | scrub => exact hcounted
      | host => exact (hcounted.raise _).set _ _
      | engine => exact ((hcounted.raise _).set _ _).alertOnce _ _ _

theorem of_plainReadLines (who : PlainReader) (a n : Nat) (c : Chip) : OnlyRead c (Chip.plainReadLines who a n c).2 := by
  induction n generalizing a c with
  | zero => exact refl c
  | succ n ih => exact trans (of_plainReadLine c who a) (ih _ _)

theorem of_memRead (c : Chip) (who : PlainReader) (mem off n : Nat) : OnlyRead c (c.memRead who mem off n).2 := by
  unfold Chip.memRead
  extract_lets n'
  split
  · split
    · exact refl c
    · exact of_plainReadLines _ _ _ c
  · exact of_sramRead _ _ _ c

theorem of_countAborts (n : Nat) (c : Chip) : OnlyRead c (Chip.countAborts n c) := by
  induction n generalizing c with
  | zero => exact refl c
  | succ n ih => exact trans (by rfl) (ih _)

theorem of_fabRead (c : Chip) (mem off n : Nat) : OnlyRead c (c.fabRead mem off n).2 := by
  unfold Chip.fabRead
  split
  · exact of_countAborts _ c
  · exact of_memRead c _ _ _ _

end Chip.OnlyRead

/-! ### A row is stored -/

/-- A row of `n` bytes has been stored in `c` at an offset of a memory, check bits and poison included; every other byte stays. -/
def Chip.RowStored (c : Chip) (mem off n : Nat) (row : List MByte) (e : Chip) : Prop :=
  (∀ k, k < n → e.mem.byte (memKey mem (off + k)) = (row.getD k MByte.aborted).v ∧
    e.mem.check (memKey mem (off + k)) = secEncode (row.getD k MByte.aborted).v (row.getD k MByte.aborted).p) ∧
  (∀ a, a < memKey mem off ∨ memKey mem (off + n) ≤ a → e.mem.byte a = c.mem.byte a)

theorem memKey_add (mem off k : Nat) : memKey mem (off + k) = memKey mem off + k := (Nat.add_assoc _ _ _).symm

/-- A Mover's write of a row that fits its memory, one other than the Plain that takes writes, stores it (R433, R436). -/
theorem Chip.rowStored_movWrite {c : Chip} {mem off n : Nat} {row : List MByte} (m : Nat) (hmem : mem ≠ 8)
    (hup : c.memDown mem = false) (hlen : row.length = n) (hfits : off + n ≤ memSize mem) :
    c.RowStored mem off n row (c.movWrite m mem off row) := by
  have hrow : row.take (memSize mem - off) = row := List.take_of_length_le (by omega)
  have hwritten : (c.movWrite m mem off row).mem = c.mem.storeBytes (memKey mem off) row := by
    simp [Chip.movWrite, Chip.fabWrite, hup, Chip.memWrite, hmem, hrow]
  unfold Chip.RowStored
  simp only [hwritten, memKey_add]
  refine ⟨fun k hk => ?_, fun a ha => Mem.byte_storeBytes_outside _ _ _ _ (by omega)⟩
  have hk : k < row.length := by omega
  have hget : row.getD k MByte.aborted = row[k] := by
    rw [List.getD_eq_getElem?_getD, List.getElem?_eq_getElem hk, Option.getD_some]
  rw [Mem.byte_storeBytes _ _ _ _ hk, Mem.check_storeBytes _ _ _ _ hk, hget]
  exact ⟨rfl, rfl⟩

section
variable {c d e : Chip} {mem off n : Nat} {row : List MByte}

/-- Reads before the store make no difference to what stays. -/
theorem Chip.RowStored.of_onlyRead (hread : c.OnlyRead d) (h : d.RowStored mem off n row e) : c.RowStored mem off n row e :=
  ⟨h.1, fun a ha => (h.2 a ha).trans (hread.byte a)⟩

theorem Chip.RowStored.byte (h : c.RowStored mem off n row e) {k : Nat} (hk : k < n) :
    e.mem.byte (memKey mem (off + k)) = (row.getD k MByte.aborted).v := (h.1 k hk).1

/-- The end of a pass leaves the memories. -/
theorem Chip.RowStored.moverDone (h : c.RowStored mem off n row e) (m : Nat) (u : UnitRun) :
    c.RowStored mem off n row (e.moverDone m u) := h

end

/-! ### A rectangle of one row -/

theorem rowAddr_zero (base : Nat) (si sz sy : Int) : rowAddr base si sz sy 0 0 0 = base := by simp [rowAddr]

theorem upDown_one (down : Bool) : upDown down 1 = [0] := by cases down <;> rfl

theorem MDesc.rowList_one {d : MDesc} (hy : d.y = 1) (hz : d.z = 1) (down : Bool) : d.rowList down = [(0, 0)] := by
  simp [MDesc.rowList, hy, hz, upDown_one]

theorem Chip.writeAll_one (m mem off : Nat) (down : Bool) (row : List MByte) (c : Chip) :
    Chip.writeAll m mem down none [(off, row)] c = c.movWrite m mem off row := rfl

/-- The row that FILL stores: its 8-byte pattern over and over (R426). -/
abbrev MDesc.fillRow (d : MDesc) : List MByte :=
  (List.range d.x).map fun k => MByte.clean ((leBytes 4 d.p0 ++ leBytes 4 d.p1).getD (k % 8) 0)

section
variable {c : Chip} {m : Nat} {u : UnitRun} {r : UnitRec} {d : MDesc} (hy : d.y = 1) (hz : d.z = 1)
include hy hz

/-- R423: one row of COPY is read, then written. -/
theorem Chip.copy_one_row (h : c.moverPass m 1 = some (u, r, d, 1)) : c.copy m =
    ((c.fabRead d.srcMem d.src d.x).2.movWrite m d.dstMem d.dst (c.fabRead d.srcMem d.src d.x).1).moverDone m u := by
  simp [Chip.copy, h, Chip.repeatFor, Chip.copyOnce, MDesc.rowList_one hy hz, rowAddr_zero, Chip.readAll, Chip.writeAll_one]

/-- R426: one row of FILL is written. -/
theorem Chip.moverFill_one_row (h : c.moverPass m 2 = some (u, r, d, 1)) : c.moverFill m =
    (c.movWrite m d.dstMem d.dst d.fillRow).moverDone m u := by
  simp [Chip.moverFill, h, Chip.repeatFor, Chip.fillOnce, MDesc.rowList_one hy hz, rowAddr_zero, Chip.writeAll_one,
    MDesc.fillRow]

/-- R427: one row of GATHER reads its index, then does what the index says. -/
theorem Chip.gather_one_row (h : c.moverPass m 3 = some (u, r, d, 1)) {t : UnitRun × Chip}
    (ht : t = Chip.gatherRow m d none 0 (gatherIndex (c.fabRead (d.p1 % 256) d.p0 4).1, 0, 0)
      (u, (c.fabRead (d.p1 % 256) d.p0 4).2)) : c.gather m = t.2.moverDone m t.1 := by
  subst ht
  simp [Chip.gather, h, Chip.gatherOnce, MDesc.rowList_one hy hz, hy, Chip.readAll, Chip.gatherRows]

end

/-! ### What the index of a GATHER row says (R427) -/

section
variable (m : Nat) (d : MDesc) (u : UnitRun) (c : Chip)

theorem Chip.gatherRow_of_zeros : Chip.gatherRow m d none 0 (some 0xFFFFFFFF, 0, 0) (u, c) =
    (u, c.movWrite m d.dstMem d.dst (List.replicate d.x (MByte.clean 0))) := by
  simp [Chip.gatherRow, rowAddr_zero, cutTo]

variable {idx : Nat} (hidx : idx ≠ 0xFFFFFFFF)
include hidx

theorem Chip.gatherRow_of_beyond (hlimit : d.p2 ≤ idx) :
    Chip.gatherRow m d none 0 (some idx, 0, 0) (u, c) = c.gatherRange m idx u := by
  simp [Chip.gatherRow, hidx, hlimit]

theorem Chip.gatherRow_of_index (hlimit : idx < d.p2) : Chip.gatherRow m d none 0 (some idx, 0, 0) (u, c) =
    (u, (c.fabRead d.srcMem (rowAddr d.src d.ssi d.ssz d.ssy 0 0 idx) d.x).2.movWrite m d.dstMem d.dst
      (c.fabRead d.srcMem (rowAddr d.src d.ssi d.ssz d.ssy 0 0 idx) d.x).1) := by
  simp [Chip.gatherRow, hidx, Nat.not_le.mpr hlimit, rowAddr_zero, cutTo]

end

theorem leNat_lt (bs : List Byte) : leNat bs < 256 ^ bs.length := by
  induction bs with
  | nil => decide
  | cons b bs ih =>
    have hb := b.isLt
    rw [leNat, List.length_cons, Nat.pow_succ]
    omega

/-- An index is a 32-bit number. -/
theorem gatherIndex_lt {bs : List MByte} {idx : Nat} (h : gatherIndex bs = some idx) : idx < 2 ^ 32 := by
  unfold gatherIndex at h
  split at h
  · cases h
  · obtain rfl := Option.some.inj h
    exact Nat.lt_of_lt_of_le (leNat_lt _) (Nat.pow_le_pow_right (n := 256) (by decide) (List.length_take_le _ _))

/-! ### An index beyond LIMIT (R427) -/

/-- An index beyond LIMIT is shown and its event raised; recording the fault writes the log's fields alone. -/
theorem Chip.fieldsBut_gatherRange (c : Chip) (m idx : Nat) (u : UnitRun) :
    FieldsBut logFields ((c.set (F.MOV_GATHER_LOG.INDEX.mov m) idx).raise F.MEM_EVENTS.GATHER_RANGE) (c.gatherRange m idx u).2 := by
  unfold Chip.gatherRange
  dsimp only
  split
  · exact .refl _ _
  · exact (FieldsBut.refl _ _).alert _ _ _ (List.Subset.refl _)

theorem Chip.mem_gatherRange (c : Chip) (m idx : Nat) (u : UnitRun) : (c.gatherRange m idx u).2.mem = c.mem := by
  unfold Chip.gatherRange
  dsimp only
  split <;> simp

theorem Chip.fld_moverDone_apart (c : Chip) (m : Nat) (u : UnitRun) {f : Fld} (hop : (F.MOV_STATUS.OP.mov m).apart f = true)
    (hdesc : (F.MOV_STATUS.DESCENDING.mov m).apart f = true) : (c.moverDone m u).fld f = c.fld f := by
  rw [Chip.moverDone, Chip.fld_setRun, Chip.setBit, Chip.fld_set_apart _ _ hdesc, Chip.fld_set_apart _ _ hop]

/-- Both Movers' copies of MOV_GATHER_LOG and MOV_STATUS lie apart from the registers that an index beyond LIMIT also writes. -/
theorem apart_gatherRange {m : Nat} (hm : m < 2) :
    (∀ g ∈ F.MEM_EVENTS.GATHER_RANGE :: logFields, g.apart (F.MOV_GATHER_LOG.INDEX.mov m) = true) ∧
      ∀ f ∈ [F.MEM_EVENTS.GATHER_RANGE, F.MOV_GATHER_LOG.INDEX.mov m],
        (F.MOV_STATUS.OP.mov m).apart f = true ∧ (F.MOV_STATUS.DESCENDING.mov m).apart f = true := by
  obtain rfl | rfl : m = 0 ∨ m = 1 := by omega
  · decide
  · decide

/-- The index beyond LIMIT stays in MOV_GATHER_LOG. -/
theorem Chip.fld_index_gatherRange {m idx : Nat} (c : Chip) (u v : UnitRun) (hm : m < 2) (hidx : idx < 2 ^ 32) :
    ((c.gatherRange m idx u).2.moverDone m v).fld (F.MOV_GATHER_LOG.INDEX.mov m) = idx := by
  obtain ⟨hindex, hstatus⟩ := apart_gatherRange hm
  obtain ⟨hop, hdesc⟩ := hstatus (F.MOV_GATHER_LOG.INDEX.mov m) (.tail _ (.head _))
  rw [Chip.fld_moverDone_apart _ _ _ hop hdesc, Chip.fieldsBut_gatherRange c m idx u _ fun g hg => hindex g (.tail _ hg),
    Chip.raise, Chip.fld_set_apart _ _ (hindex _ (.head _)), Chip.fld_set_same _ (F.MOV_GATHER_LOG.INDEX.mov m) _ (Nat.le_refl 32),
    Nat.mod_eq_of_lt hidx]

theorem Chip.fld_event_gatherRange {m : Nat} (c : Chip) (idx : Nat) (u v : UnitRun) (hm : m < 2) :
    ((c.gatherRange m idx u).2.moverDone m v).fld F.MEM_EVENTS.GATHER_RANGE = 1 := by
  obtain ⟨-, hstatus⟩ := apart_gatherRange hm
  obtain ⟨hop, hdesc⟩ := hstatus F.MEM_EVENTS.GATHER_RANGE (.head _)
  rw [Chip.fld_moverDone_apart _ _ _ hop hdesc,
    Chip.fieldsBut_gatherRange c m idx u _ (by decide), Chip.fld_raise_same _ rfl (by decide)]

end Sys2Proof.Machine

namespace Sys2Proof
open Machine

section
variable {s : State} {post : Chip → Prop} {m : Nat} (hm : m < 2)
include hm

theorem completes_copy (h : post (s.chip.copy m)) : Completes (.copy m) s post :=
  completes_of_act (fun _ c => c.copy m) rfl (by simpa [Instr.wf] using hm) h

theorem completes_moverFill (h : post (s.chip.moverFill m)) : Completes (.moverFill m) s post :=
  completes_of_act (fun _ c => c.moverFill m) rfl (by simpa [Instr.wf] using hm) h

theorem completes_gather (h : post (s.chip.gather m)) : Completes (.gather m) s post :=
  completes_of_act (fun _ c => c.gather m) rfl (by simpa [Instr.wf] using hm) h

end

section
variable {s : State} {m : Nat} {u : UnitRun} {r : UnitRec} {d : MDesc} (hm : m < 2) (hy : d.y = 1) (hz : d.z = 1)
include hm hy hz

/-- R423: COPY reads its row before it stores it. -/
theorem completes_copy_row (hmem : d.dstMem ≠ 8) (hup : s.chip.memDown d.dstMem = false)
    (hfits : d.dst + d.x ≤ memSize d.dstMem) (hpass : s.chip.moverPass m 1 = some (u, r, d, 1)) :
    Completes (.copy m) s (s.chip.RowStored d.dstMem d.dst d.x (s.chip.fabRead d.srcMem d.src d.x).1) := by
  have hread := Chip.OnlyRead.of_fabRead s.chip d.srcMem d.src d.x
  refine completes_copy hm ?_
  rw [Chip.copy_one_row hy hz hpass]
  exact ((Chip.rowStored_movWrite m hmem ((hread.memDown _).trans hup) (Chip.length_fabRead _ _ _ _) hfits).of_onlyRead
    hread).moverDone m u

/-- R426: FILL stores its pattern. -/
theorem completes_fill_row (hmem : d.dstMem ≠ 8) (hup : s.chip.memDown d.dstMem = false)
    (hfits : d.dst + d.x ≤ memSize d.dstMem) (hpass : s.chip.moverPass m 2 = some (u, r, d, 1)) :
    Completes (.moverFill m) s (s.chip.RowStored d.dstMem d.dst d.x d.fillRow) := by
  refine completes_moverFill hm ?_
  rw [Chip.moverFill_one_row hy hz hpass]
  exact (Chip.rowStored_movWrite m hmem hup (by simp [MDesc.fillRow]) hfits).moverDone m u

variable (hpass : s.chip.moverPass m 3 = some (u, r, d, 1)) {idx : Nat}
  (hindex : gatherIndex (s.chip.fabRead (d.p1 % 256) d.p0 4).1 = some idx)
include hpass hindex

/-- R427: an index beyond LIMIT stores nothing, is logged, raises its event and marks the unit. -/
theorem completes_gather_beyond (hidx : idx ≠ 0xFFFFFFFF) (hlimit : d.p2 ≤ idx) : Completes (.gather m) s fun c =>
    c.fld (F.MOV_GATHER_LOG.INDEX.mov m) = idx ∧ c.fld F.MEM_EVENTS.GATHER_RANGE = 1 ∧
      (∃ v, c.laneRun (m + 7) = some v ∧ v.tainted = true) ∧ c.mem.data = s.chip.mem.data := by
  have hread := Chip.OnlyRead.of_fabRead s.chip (d.p1 % 256) d.p0 4
  have haccess := (Chip.Accessed.of_fabRead s.chip (d.p1 % 256) d.p0 4).trans (UnitWork.of_gatherRange _ m idx u).2
  have hlane := (Chip.laneRun_congr haccess.sched _).trans (Chip.laneRun_of_moverPass hpass)
  refine completes_gather hm ?_
  rw [Chip.gather_one_row hy hz hpass rfl, hindex, Chip.gatherRow_of_beyond m d u _ hidx hlimit]
  refine ⟨Chip.fld_index_gatherRange _ u _ hm (gatherIndex_lt hindex), Chip.fld_event_gatherRange _ idx u _ hm,
    ⟨_, Chip.laneRun_moverDone hlane _, rfl⟩, ?_⟩
  exact (congrArg Mem.data (Chip.mem_gatherRange _ m idx u)).trans hread.data

variable (hmem : d.dstMem ≠ 8) (hfits : d.dst + d.x ≤ memSize d.dstMem)
  (hup : (s.chip.fabRead (d.p1 % 256) d.p0 4).2.memDown d.dstMem = false)
include hmem hfits hup

/-- R427: the index 0xFFFF_FFFF stores a row of zeros. -/
theorem completes_gather_zeros (hidx : idx = 0xFFFFFFFF) : Completes (.gather m) s
    (s.chip.RowStored d.dstMem d.dst d.x (List.replicate d.x (MByte.clean 0))) := by
  subst hidx
  refine completes_gather hm ?_
  rw [Chip.gather_one_row hy hz hpass rfl, hindex, Chip.gatherRow_of_zeros]
  exact ((Chip.rowStored_movWrite m hmem hup List.length_replicate hfits).of_onlyRead (.of_fabRead _ _ _ _)).moverDone m u

/-- R427: an index below LIMIT stores the row that it selects. -/
theorem completes_gather_selected (hidx : idx ≠ 0xFFFFFFFF) (hlimit : idx < d.p2) : Completes (.gather m) s
    (s.chip.RowStored d.dstMem d.dst d.x ((s.chip.fabRead (d.p1 % 256) d.p0 4).2.fabRead d.srcMem
      (rowAddr d.src d.ssi d.ssz d.ssy 0 0 idx) d.x).1) := by
  have hread := Chip.OnlyRead.of_fabRead (s.chip.fabRead (d.p1 % 256) d.p0 4).2 d.srcMem
    (rowAddr d.src d.ssi d.ssz d.ssy 0 0 idx) d.x
  refine completes_gather hm ?_
  rw [Chip.gather_one_row hy hz hpass rfl, hindex, Chip.gatherRow_of_index m d u _ hidx hlimit]
  exact ((Chip.rowStored_movWrite m hmem ((hread.memDown _).trans hup) (Chip.length_fabRead _ _ _ _) hfits).of_onlyRead
    (.trans (.of_fabRead _ _ _ _) hread)).moverDone m u

end

theorem Completes.mono {i : Instr} {s : State} {post weaker : Chip → Prop} (h : Completes i s post)
    (himp : ∀ c, post c → weaker c) : Completes i s weaker := by
  obtain ⟨t, hexec, hpending, hfuses, hpost⟩ := h
  exact ⟨t, hexec, hpending, hfuses, himp _ hpost⟩

/-- Settles O35: a row that COPY, FILL or GATHER writes is a row stored, and an index beyond LIMIT leads to no write. -/
theorem moverRowsAreStored : Obligations.MoverRowsAreStored := by
  refine ⟨fun s m u r d hm hy hz hmem hup hfits =>
      ⟨completes_copy_row hm hy hz hmem hup hfits, completes_fill_row hm hy hz hmem hup hfits⟩,
    fun s m u r d idx hm hy hz hmem hfits hpass hindex hup =>
      ⟨fun hidx => (completes_gather_zeros hm hy hz hpass hindex hmem hfits hup hidx).mono ?zeros,
        completes_gather_beyond hm hy hz hpass hindex,
        fun hidx hlimit => (completes_gather_selected hm hy hz hpass hindex hmem hfits hup hidx hlimit).mono ?selected⟩⟩
  case zeros =>
    intro c hrow k hk
    rw [hrow.byte hk, List.getD_eq_getElem?_getD, List.getElem?_replicate, if_pos hk, Option.getD_some,
      MByte.clean]
  case selected => exact fun c hrow k hk => hrow.byte hk

end Sys2Proof
end
